-- ==== Sys2Proof/Word.lean ====
section
/-! DEFINITION. The word types of the block (spec/00_scope.md R7, R10). -/

namespace Sys2Proof

/-- A 32-bit word: a micro-instruction, a register, an LFO phase. -/
abbrev Word := BitVec 32

/-- One byte of frame memory (R80). -/
abbrev Byte := BitVec 8

/-- The bit pattern of a binary32 value (R10); the arithmetic on it is in `Machine/Float.lean`. -/
abbrev F32 := BitVec 32

end Sys2Proof
end

