-- ==== Sys2Proof/Syntax.lean ====
section
/-! DEFINITION. The twelve micro-instructions of spec/30_encoding.md R101 and their operands. -/

namespace Sys2Proof

/-- A delay-line id (R102): `0` ap1, `1` ap2, `2` ap3, `3` ap4, `4` dap1a, `5` dap1b, `6` del1,
`7` dap2a, `8` dap2b, `9` del2 (decision D19). -/
abbrev LineId := Fin 10

/-- A scalar register number (R25, R102): `0` APOUT, `1` WET, `2` LP1, `3` LP2. -/
abbrev ScalarReg := Fin 4

/-- An LFO (R104): `0` LFO1, `1` LFO2. -/
abbrev LfoId := Fin 2

/-- The coefficient select `csel` (R110), in the order of its codes 0 to 7. -/
inductive Coef where
  | zero | one | two | kap | negKap | krt | gain | klp
deriving DecidableEq, Repr

/-- The input source of RDIN (R107). -/
inductive InSrc where
  | left | right | both
deriving DecidableEq, Repr

/-- An output channel of XFADE (R108). -/
inductive Channel where
  | left | right
deriving DecidableEq, Repr

/-- The offset operand of format R (R111): `#K`, `#K*sz` or `TAIL*sz`. -/
inductive Offset where
  | imm (k : Nat)
  | scaled (k : Nat)
  | tail
deriving DecidableEq, Repr

/-- A micro-instruction, one constructor per row of spec/opcode_table.json. -/
inductive Instr where
  | nop
  | start
  | rdin (src : InSrc) (coef : Coef)
  | rd (line : LineId) (off : Offset) (coef : Coef)
  | rdm (line : LineId) (base depth : Nat) (lfo : LfoId) (coef : Coef)
  | wrap (line : LineId) (coef : Coef)
  | wr (line : LineId) (off : Offset) (coef : Coef)
  | wrout (reg : ScalarReg) (coef : Coef)
  | ld (reg : ScalarReg)
  | lp (reg : ScalarReg) (coef : Coef)
  | xfade (ch : Channel) (reg : ScalarReg)
  | eof
deriving DecidableEq, Repr

end Sys2Proof
end

