-- ==== Sys2Proof/WellFormed.lean ====
section
/-! DEFINITION. Which terms of `Instr` have an encoding: the integer operands fit their fields
(spec/30_encoding.md R103, R104). Every other field is bounded by its type. -/

namespace Sys2Proof

/-- `K` is a 13-bit unsigned integer (R103). -/
def Offset.wf : Offset → Bool
  | .imm k => decide (k < 8192)
  | .scaled k => decide (k < 8192)
  | .tail => true

/-- The instruction's integer operands fit their fields (R103, R104). -/
def Instr.wf : Instr → Bool
  | .rd _ off _ => off.wf
  | .wr _ off _ => off.wf
  | .rdm _ base depth _ _ => decide (base < 8192) && decide (depth < 128)
  | .nop => true
  | .start => true
  | .rdin _ _ => true
  | .wrap _ _ => true
  | .wrout _ _ => true
  | .ld _ => true
  | .lp _ _ => true
  | .xfade _ _ => true
  | .eof => true

end Sys2Proof
end

