-- ==== Sys2Proof/Decode.lean ====
section
/-! DEFINITION. Decoding and encoding a micro-instruction word (spec/30_encoding.md R100 to R113).
The ROM is indexed by words (R100), so the decoder reads one word; it depends on nothing else. -/

namespace Sys2Proof

/-- Why a word is ILLEGAL (R113). -/
inductive IllegalWord where
  | reservedOpcode  -- op 0xC to 0xF
  | reservedBits    -- a must-be-zero field is not zero
  | line            -- line > 9
  | scalarReg       -- sreg > 3
  | source          -- src > 2
  | channel         -- ch > 1
  | offsetMode      -- omode = 3
  | tailWithK       -- omode = 2 and K != 0
  | ldCoef          -- LD with csel != 0
deriving DecidableEq, Repr

/-- What a word decodes to: an instruction, or ILLEGAL by name. -/
inductive Decoded where
  | ok (i : Instr)
  | illegal (why : IllegalWord)
deriving DecidableEq, Repr

/-- The field of `len` bits whose lowest bit is `lo` (R7), zero-extended (R102). -/
def bits (w : Word) (lo len : Nat) : Nat := w.toNat / 2 ^ lo % 2 ^ len

/-- `csel` (R110). -/
def Coef.code : Coef → Nat
  | .zero => 0
  | .one => 1
  | .two => 2
  | .kap => 3
  | .negKap => 4
  | .krt => 5
  | .gain => 6
  | .klp => 7

/-- The coefficient of a 3-bit `csel`; every value is legal (R102). -/
def Coef.ofCode : Nat → Coef
  | 0 => .zero
  | 1 => .one
  | 2 => .two
  | 3 => .kap
  | 4 => .negKap
  | 5 => .krt
  | 6 => .gain
  | _ => .klp

/-- `csel`, bits 23:21, in every format that has it (R102). -/
def coefField (w : Word) : Coef := Coef.ofCode (bits w 21 3)

/-- `line`, bits 27:24 (R102). -/
def lineField (w : Word) : Option LineId :=
  if h : bits w 24 4 < 10 then some ⟨bits w 24 4, h⟩ else none

/-- `sreg` in the field whose lowest bit is `lo` (R102, R106, R108). -/
def scalarField (w : Word) (lo : Nat) : Option ScalarReg :=
  if h : bits w lo 4 < 4 then some ⟨bits w lo 4, h⟩ else none

/-- Format N (R109). -/
def decodeN (i : Instr) (w : Word) : Decoded :=
  if bits w 0 28 = 0 then .ok i else .illegal .reservedBits

/-- Format I (R107). -/
def decodeI (w : Word) : Decoded :=
  if bits w 0 21 ≠ 0 then .illegal .reservedBits
  else match bits w 24 4 with
    | 0 => .ok (.rdin .left (coefField w))
    | 1 => .ok (.rdin .right (coefField w))
    | 2 => .ok (.rdin .both (coefField w))
    | _ => .illegal .source

/-- Format R (R103, R111); `mk` is RD or WR. -/
def decodeR (mk : LineId → Offset → Coef → Instr) (w : Word) : Decoded :=
  match lineField w with
  | none => .illegal .line
  | some line =>
    if bits w 13 6 ≠ 0 then .illegal .reservedBits
    else match bits w 19 2 with
      | 0 => .ok (mk line (.imm (bits w 0 13)) (coefField w))
      | 1 => .ok (mk line (.scaled (bits w 0 13)) (coefField w))
      | 2 => if bits w 0 13 = 0 then .ok (mk line .tail (coefField w)) else .illegal .tailWithK
      | _ => .illegal .offsetMode

/-- Format M (R104). -/
def decodeM (w : Word) : Decoded :=
  match lineField w with
  | none => .illegal .line
  | some line =>
    .ok (.rdm line (bits w 0 13) (bits w 13 7) (if bits w 20 1 = 0 then 0 else 1) (coefField w))

/-- Format A (R105). -/
def decodeA (w : Word) : Decoded :=
  match lineField w with
  | none => .illegal .line
  | some line =>
    if bits w 0 21 = 0 then .ok (.wrap line (coefField w)) else .illegal .reservedBits

/-- Format S with a coefficient (R106); `mk` is WROUT or LP. -/
def decodeS (mk : ScalarReg → Coef → Instr) (w : Word) : Decoded :=
  match scalarField w 24 with
  | none => .illegal .scalarReg
  | some r => if bits w 0 21 = 0 then .ok (mk r (coefField w)) else .illegal .reservedBits

/-- LD, format S with `csel = 0` (R106). -/
def decodeLd (w : Word) : Decoded :=
  match scalarField w 24 with
  | none => .illegal .scalarReg
  | some r =>
    if bits w 0 21 ≠ 0 then .illegal .reservedBits
    else if bits w 21 3 = 0 then .ok (.ld r) else .illegal .ldCoef

/-- Format X (R108). -/
def decodeX (w : Word) : Decoded :=
  match scalarField w 20 with
  | none => .illegal .scalarReg
  | some r =>
    if bits w 0 20 ≠ 0 then .illegal .reservedBits
    else match bits w 24 4 with
      | 0 => .ok (.xfade .left r)
      | 1 => .ok (.xfade .right r)
      | _ => .illegal .channel

/-- The decoder: the opcode field 31:28, then the opcode's format (R100, R101). -/
def decode (w : Word) : Decoded :=
  match bits w 28 4 with
  | 0 => decodeN .nop w
  | 1 => decodeN .start w
  | 2 => decodeI w
  | 3 => decodeR .rd w
  | 4 => decodeM w
  | 5 => decodeA w
  | 6 => decodeR .wr w
  | 7 => decodeS .wrout w
  | 8 => decodeLd w
  | 9 => decodeS .lp w
  | 10 => decodeX w
  | 11 => decodeN .eof w
  | _ => .illegal .reservedOpcode

/-- The decoder on a row of the opcode table: 32 bits, numbered as the ROM word is. -/
def decodeTableWord (nbits w : Nat) : Option Instr :=
  match decode (BitVec.ofNat 32 (w % 2 ^ nbits)) with
  | .ok i => some i
  | .illegal _ => none

/-! The encoder, from the same tables. -/

/-- The opcode number (R101). -/
def Instr.opcode : Instr → Nat
  | .nop => 0
  | .start => 1
  | .rdin _ _ => 2
  | .rd _ _ _ => 3
  | .rdm _ _ _ _ _ => 4
  | .wrap _ _ => 5
  | .wr _ _ _ => 6
  | .wrout _ _ => 7
  | .ld _ => 8
  | .lp _ _ => 9
  | .xfade _ _ => 10
  | .eof => 11

/-- `src` (R107). -/
def InSrc.code : InSrc → Nat
  | .left => 0
  | .right => 1
  | .both => 2

/-- `ch` (R108). -/
def Channel.code : Channel → Nat
  | .left => 0
  | .right => 1

/-- `omode` and `K`, bits 20:0 of format R (R103). -/
def Offset.field : Offset → Nat
  | .imm k => k
  | .scaled k => 1 * 2 ^ 19 + k
  | .tail => 2 * 2 ^ 19

/-- Bits 27:0 of an instruction's word (R103 to R109). -/
def Instr.operandField : Instr → Nat
  | .nop => 0
  | .start => 0
  | .rdin src c => src.code * 2 ^ 24 + c.code * 2 ^ 21
  | .rd line off c => line.val * 2 ^ 24 + c.code * 2 ^ 21 + off.field
  | .rdm line base depth lfo c =>
    line.val * 2 ^ 24 + c.code * 2 ^ 21 + lfo.val * 2 ^ 20 + depth * 2 ^ 13 + base
  | .wrap line c => line.val * 2 ^ 24 + c.code * 2 ^ 21
  | .wr line off c => line.val * 2 ^ 24 + c.code * 2 ^ 21 + off.field
  | .wrout r c => r.val * 2 ^ 24 + c.code * 2 ^ 21
  | .ld r => r.val * 2 ^ 24
  | .lp r c => r.val * 2 ^ 24 + c.code * 2 ^ 21
  | .xfade ch r => ch.code * 2 ^ 24 + r.val * 2 ^ 20
  | .eof => 0

/-- The word of a well-formed instruction. -/
def encode (i : Instr) : Word := BitVec.ofNat 32 (i.opcode * 2 ^ 28 + i.operandField)

end Sys2Proof
end

