-- ==== Sys2Proof/Config.lean ====
section
/-! DEFINITION. What an implementation of the block fixes (spec/00_scope.md R6) and the two functions
the spec leaves to it. The values live in `State.cfg`, so a statement about every state is a statement
about every implementation; no step changes them. -/

namespace Sys2Proof

/-- `STORE_FMT` (R75, R76; decision D9). -/
inductive StoreFmt where
  | f32   -- a storage unit is 32 bits
  | q15s  -- a storage unit is 16 bits, saturating Q15
deriving DecidableEq, Repr

/-- `WAVE`, the phase to binary32 function (R203; decisions D17, D49): the reference sine, or the
`k`-th other waveform an implementation may choose. -/
inductive WaveKind where
  | sine
  | platform (k : Nat)
deriving DecidableEq, Repr

/-- `FRAME_WINDOW`, the platform's predicate on host byte ranges (R82; decision D27): every range
(the reference), a finite list of allowed ranges `[lo, hi)`, or the `k`-th arbitrary predicate. -/
inductive FrameWindow where
  | all
  | ranges (allowed : List (Nat × Nat))
  | platform (k : Nat)
deriving DecidableEq, Repr

/-- The implementation parameters a rule reads (R6). The sample rate `FS` is read by no rule. -/
structure Params where
  /-- `STORE_FMT`, R75 and R76. -/
  storeFmt : StoreFmt
  /-- `FTZ`, R15. -/
  ftz : Bool
  /-- `LFO1_INC`, R205. -/
  lfo1Inc : Word
  /-- `LFO2_INC`, R205. -/
  lfo2Inc : Word
  /-- `WAVE`, R203. -/
  wave : WaveKind
  /-- `REG_BASE`, the byte address of the 256-byte register window, R40. -/
  regBase : Nat
  /-- `FRAME_WINDOW`, R82. -/
  frameWindow : FrameWindow
deriving DecidableEq, Repr

/-- FREE VALUE (entry 10): the waveforms an implementation may put in place of the sine. Nothing is
known of them but what `Machine/Wave.lean` imposes, the laws of R203. -/
opaque Config.platformWave : Nat → BitVec 32 → BitVec 32

/-- FREE VALUE (entry 11): the predicates on (base, byte count) a platform may choose (R82). -/
opaque Config.platformWindow : Nat → Nat → Nat → Bool

end Sys2Proof
end

