-- ==== Sys2Proof/Machine/Reference.lean ====
section
/-! DEFINITION. The constants the spec fixes or gives as reference values: the line lengths, the
reference microprogram, the open parameters' reference values, the pseudo-instructions. -/

namespace Sys2Proof.Machine

/-- `ARENA_UNITS` (R70). -/
def arenaUnits : Nat := 16384

/-- The reserved lengths in declared order (R30). -/
def lineLengths : Vector Nat 10 := #v[113, 162, 241, 399, 1653, 2038, 3411, 1913, 1663, 4782]

/-- The reference values of the open parameters (92_eei_decisions.md, "Open parameters"; entry 8 for
`REG_BASE`, for which none is needed). -/
def referenceParams : Params where
  storeFmt := .f32
  ftz := false
  lfo1Inc := 67109#32
  lfo2Inc := 40265#32
  wave := .sine
  regBase := 2 ^ 32
  frameWindow := .all

/-- UPC 0 to 12: tick start, smear, input, input diffuser (R280). -/
def romDiffuser : List Word :=
  [0x10000000#32, 0x4027800A#32, 0x60080064#32, 0x22C00000#32,
   0x30700000#32, 0x50800000#32, 0x31700000#32, 0x51800000#32,
   0x32700000#32, 0x52800000#32, 0x33700000#32, 0x53800000#32, 0x70200000#32]

/-- UPC 13 to 22: loop A (R280). -/
def romLoopA : List Word :=
  [0x80000000#32, 0x49BC9248#32, 0x92E00000#32, 0x34900000#32, 0x54600000#32,
   0x35700000#32, 0x55800000#32, 0x66400000#32, 0x71000000#32, 0xA0100000#32]

/-- UPC 23 to 33: loop B and the end of the frame (R280). -/
def romLoopB : List Word :=
  [0x80000000#32, 0x36B00000#32, 0x93E00000#32, 0x37700000#32, 0x57800000#32,
   0x38900000#32, 0x58600000#32, 0x69400000#32, 0x71000000#32, 0xA1100000#32, 0xB0000000#32]

/-- The reference microprogram ROM, 34 words (R280). -/
def referenceRom : List Word := romDiffuser ++ romLoopA ++ romLoopB

/-- The pseudo-instruction `AP+ line` (R117). -/
def apPlus (line : LineId) : List Instr := [.rd line .tail .kap, .wrap line .negKap]

/-- The pseudo-instruction `AP- line` (R117). -/
def apMinus (line : LineId) : List Instr := [.rd line .tail .negKap, .wrap line .kap]

end Sys2Proof.Machine
end

