-- ==== Sys2Proof/Machine/State.lean ====
section
/-! DEFINITION. The state of the block (spec/10_state.md), the reasons a step of the model can stop,
and the state after reset (R60). -/

namespace Sys2Proof.Machine

/-- Frame memory (R80): the bytes that differ from what an unlisted byte reads as, addresses
strictly rising. -/
abbrev Memory := List Host.Cell

/-- The arena (R70): the units that differ from what an unlisted unit reads as, indices strictly
rising. Under `Q15S` a unit is the low 16 bits of its word (entry 17). -/
abbrev Arena := List (Nat × Word)

/-- One value for each of the six parameters (R45 to R50): a register, a latch (R24) or a `PV` bit. -/
structure ParamFile (α : Type) where
  amount : α
  inputGain : α
  time : α
  diffusion : α
  lp : α
  size : α
deriving DecidableEq, Repr

/-- The same value for all six. -/
def ParamFile.fill {α : Type} (a : α) : ParamFile α := ⟨a, a, a, a, a, a⟩

/-- `PHASE` (R29). -/
inductive Phase where
  | idle | fetch | run
deriving DecidableEq, Repr

/-- The fifteen fault causes of the block (R401). They are states of the block, not stops of the
model: `raise` in `Ops.lean` takes them. -/
inductive FaultCause where
  | illegal | offsetRange | apNoRead | unwrittenScalar | paramUnset | noTick | tickOpen
  | notInit | reinit | busy | frameAlign | frameRange | arenaOverflow | upcRange | cmdInvalid
deriving DecidableEq, Repr

/-- The values a hardware reset leaves unspecified (R60, R500), as the platform's move supplies them
(entry 5). -/
structure Draw where
  param : ParamFile F32
  latch : ParamFile F32
  blkBase : Word
  blkCount : Word
  fidx : Word
  acc : F32
  prev : F32
  lfov : Vector F32 2
  sreg : Vector F32 4
  fl : F32
  fr : F32
  base : Vector Nat 10
  wp : Vector Nat 10
  ph : Vector Word 2
  arena : Arena
deriving DecidableEq, Repr

/-- One atomic move of the interleaving (R20, R310, R500; entry 2). -/
inductive Move where
  /-- An engine micro-step (R274). -/
  | engine
  /-- `HostRead(o)`. -/
  | hostRead (offset : Nat)
  /-- `HostWrite(o, v)`. -/
  | hostWrite (offset : Nat) (value : Word)
  /-- The host reads a byte of frame memory. -/
  | frameRead (addr : Nat)
  /-- The host writes a byte of frame memory. -/
  | frameWrite (addr : Nat) (value : Byte)
  /-- The platform asserts `Reset`. -/
  | reset (draw : Draw)
deriving DecidableEq, Repr

/-- Where the model itself stops. No run from reset reaches either (`Safety.lean`). -/
inductive Fault where
  /-- RD, RDM, WRAP or WR would access an arena index outside 0..16383 (R9, R70). Safe: the model
  stops where the spec gives no access. -/
  | arenaIndex (index : Nat)
  /-- The frame fetch or EOF would access a byte outside the 32-bit space (R80, R82). Safe. -/
  | frameAddress (addr : Nat)
deriving DecidableEq, Repr

/-- Moves the model has no meaning for. -/
inductive Refusal where
  /-- An instruction whose meaning is not written: raised by `exec` alone. Safe. -/
  | notModelled (mnemonic : String)
  /-- A host access to the register window that is not an aligned 32-bit access inside it (R310,
  U20). Raised by the host moves. Safe. -/
  | hostAccess (offset : Nat)
  /-- A host access to a frame of the running block while BUSY (R92, U19). Raised by the host moves.
  Safe. -/
  | frameOwned (addr : Nat)
  /-- A host access to a byte outside the 32-bit frame-memory space (R80). Raised by the host moves.
  Safe. -/
  | hostAddress (addr : Nat)
deriving DecidableEq, Repr

/-- The block's state, with the names of spec/10_state.md. -/
structure State where
  /-- `INITED` (R36). -/
  inited : Bool
  /-- `PHASE` (R29); `BUSY` is `phase ≠ idle`. -/
  phase : Phase
  /-- `FAULT` (R36). -/
  fault : Bool
  /-- `FCAUSE` (R36, R401). -/
  fcause : BitVec 4
  /-- `FUPC` (R36, R51). -/
  fupc : BitVec 9
  /-- `FSRC` (R36, R51). -/
  fsrc : Bool
  /-- `FFRAME` (R36, R52). -/
  fframe : Word
  /-- `FRAME_BASE` (R43). -/
  frameBase : Word
  /-- `FRAME_COUNT` (R44). -/
  frameCount : Word
  /-- `AMOUNT`, `INPUT_GAIN`, `TIME`, `DIFFUSION`, `LP`, `SIZE` (R45 to R50). -/
  param : ParamFile F32
  /-- `PV[..]` (R36). -/
  pv : ParamFile Bool
  /-- `BLK_BASE` (R35). -/
  blkBase : Word
  /-- `BLK_COUNT` (R35). -/
  blkCount : Word
  /-- `FIDX` (R35). -/
  fidx : Word
  /-- `FRAMES_DONE` (R35, R53). -/
  framesDone : Word
  /-- `UPC` (R29). -/
  upc : Nat
  /-- `TICK_OPEN` (R28). -/
  tickOpen : Bool
  /-- `ACC` (R22). -/
  acc : F32
  /-- `PREV` (R23). -/
  prev : F32
  /-- `PREVTAG` (R23). -/
  prevTag : Option LineId
  /-- `kAMT`, `kGAIN`, `kRT`, `kAP`, `kLP`, `kSZ` (R24). -/
  latch : ParamFile F32
  /-- `LFOV[0..1]` (R27). -/
  lfov : Vector F32 2
  /-- `S[0..3]` (R25). -/
  sreg : Vector F32 4
  /-- `V[0..3]` (R25). -/
  sv : Vector Bool 4
  /-- `FL` (R26). -/
  fl : F32
  /-- `FR` (R26). -/
  fr : F32
  /-- `LEN[0..9]` (R30). -/
  len : Vector Nat 10
  /-- `BASE[0..9]` (R30). -/
  base : Vector Nat 10
  /-- `WP[0..9]` (R31). -/
  wp : Vector Nat 10
  /-- `PH[0..1]` (R32). -/
  ph : Vector Word 2
  /-- `INC[0..1]` (R32, R54). -/
  inc : Vector Word 2
  /-- The arena (R33, R70). -/
  arena : Arena
  /-- Frame memory (R80). -/
  mem : Memory
  /-- `UCODE[0..ROM_LEN-1]` (R34); `ROM_LEN` is its length. -/
  ucode : List Word
  /-- The implementation parameters (R6). -/
  cfg : Params
  /-- The model's own: the moves still to come, the next first; when there is none the engine goes
  on (R20; entry 2). -/
  moves : List Move
  /-- The model's own: what the last host read returned (R310; entry 13). -/
  hostData : Word
deriving DecidableEq, Repr

/-- The block right after reset (R60). Elements the spec leaves unspecified hold 0 (entry 4), the
arena is the reference launch arena (entry 6), the ROM is the reference microprogram (R34). -/
def State.reset : State where
  inited := false
  phase := .idle
  fault := false
  fcause := 0#4
  fupc := 0#9
  fsrc := false
  fframe := 0#32
  frameBase := 0#32
  frameCount := 0#32
  param := .fill 0#32
  pv := .fill false
  blkBase := 0#32
  blkCount := 0#32
  fidx := 0#32
  framesDone := 0#32
  upc := 0
  tickOpen := false
  acc := 0#32
  prev := 0#32
  prevTag := none
  latch := .fill 0#32
  lfov := #v[0#32, 0#32]
  sreg := #v[0#32, 0#32, 0#32, 0#32]
  sv := #v[false, false, false, false]
  fl := 0#32
  fr := 0#32
  len := lineLengths
  base := #v[0, 0, 0, 0, 0, 0, 0, 0, 0, 0]
  wp := #v[0, 0, 0, 0, 0, 0, 0, 0, 0, 0]
  ph := #v[0#32, 0#32]
  inc := #v[0#32, 0#32]
  arena := []
  mem := []
  ucode := referenceRom
  cfg := referenceParams
  moves := []
  hostData := 0#32

end Sys2Proof.Machine
end

