-- ==== Sys2Proof/Machine/Cells.lean ====
section
/-! DEFINITION. Sparse storage in one canonical form, for the arena (spec/20_memory.md R70) and for
frame memory (R80): addresses strictly rising, no entry equal to what an unlisted address reads as. -/

namespace Sys2Proof.Machine

/-- What an unlisted cell reads as: zero, the reference launch contents of the arena (R71; entry 6)
and the model's choice for frame memory (entry 7). -/
def unlisted (w : Nat) : BitVec w := 0#w

/-- The value at address `a`. -/
def readCell {w : Nat} : List (Nat × BitVec w) → Nat → BitVec w
  | [], _ => unlisted w
  | (b, v) :: rest, a => if a = b then v else readCell rest a

/-- Store `v` at address `a`; storing what an unlisted cell reads as removes the entry. -/
def writeCell {w : Nat} : List (Nat × BitVec w) → Nat → BitVec w → List (Nat × BitVec w)
  | [], a, v => if v = unlisted w then [] else [(a, v)]
  | (b, u) :: rest, a, v =>
    if a < b then (if v = unlisted w then (b, u) :: rest else (a, v) :: (b, u) :: rest)
    else if a = b then (if v = unlisted w then rest else (a, v) :: rest)
    else (b, u) :: writeCell rest a v

/-- Canonical, with every address at least `lo`. -/
def cellsFrom {w : Nat} (lo : Nat) : List (Nat × BitVec w) → Bool
  | [] => true
  | (b, v) :: rest => decide (lo ≤ b) && v != unlisted w && cellsFrom (b + 1) rest

/-- The canonical form of frame memory. -/
def Memory.wf (m : Memory) : Bool := cellsFrom 0 m

/-- The canonical form of the arena, with every index below `ARENA_UNITS` (R70). -/
def Arena.wf (m : Arena) : Bool := cellsFrom 0 m && m.all fun c => decide (c.1 < arenaUnits)

/-- The four bytes at `a` as a little-endian word (R84). -/
def readFrameWord (m : Memory) (a : Nat) : Word :=
  readCell m (a + 3) ++ readCell m (a + 2) ++ readCell m (a + 1) ++ readCell m a

/-- Store a word at `a`, little-endian (R84). -/
def writeFrameWord (m : Memory) (a : Nat) (v : Word) : Memory :=
  let m := writeCell m a (v.extractLsb' 0 8)
  let m := writeCell m (a + 1) (v.extractLsb' 8 8)
  let m := writeCell m (a + 2) (v.extractLsb' 16 8)
  writeCell m (a + 3) (v.extractLsb' 24 8)

/-- The bits of a storage unit under a format (R70): Q15S units have 16. -/
def unitOf (fmt : StoreFmt) (u : Word) : Word :=
  match fmt with
  | .f32 => u
  | .q15s => (u.setWidth 16).setWidth 32

/-- The arena a list of (index, unit) pairs describes: entries outside the arena are dropped, a later
entry for an index wins, units have the format's width. -/
def arenaOf (fmt : StoreFmt) (units : Arena) : Arena :=
  units.foldl (fun m c => if c.1 < arenaUnits then writeCell m c.1 (unitOf fmt c.2) else m) []

end Sys2Proof.Machine
end

