-- ==== Sys2Proof/Machine/Flags.lean ====
section
/-! DEFINITION. The bits the block keeps beside its data. It has no condition codes (spec/10_state.md
R37): the only bits an operation sets are the validity bits, `PREVTAG`, `TICK_OPEN` and the fault
fields. Here: the fault codes (R401), `BUSY`, and the words the host reads them in (R42, R51, R310). -/

namespace Sys2Proof.Machine

/-- `FCAUSE` (R401). -/
def FaultCause.code : FaultCause → BitVec 4
  | .illegal => 1#4
  | .offsetRange => 2#4
  | .apNoRead => 3#4
  | .unwrittenScalar => 4#4
  | .paramUnset => 5#4
  | .noTick => 6#4
  | .tickOpen => 7#4
  | .notInit => 8#4
  | .reinit => 9#4
  | .busy => 10#4
  | .frameAlign => 11#4
  | .frameRange => 12#4
  | .arenaOverflow => 13#4
  | .upcRange => 14#4
  | .cmdInvalid => 15#4

/-- The kind column of R401: raised by a host command, or else by the engine. -/
def FaultCause.isHostCommand : FaultCause → Bool
  | .illegal => false
  | .offsetRange => false
  | .apNoRead => false
  | .unwrittenScalar => false
  | .paramUnset => false
  | .noTick => false
  | .tickOpen => false
  | .notInit => true
  | .reinit => true
  | .busy => true
  | .frameAlign => true
  | .frameRange => true
  | .arenaOverflow => true
  | .upcRange => false
  | .cmdInvalid => true

/-- `BUSY = 1` exactly when `PHASE != IDLE` (R29). -/
def State.busy (s : State) : Bool := s.phase != .idle

/-- Every parameter is valid: the test START makes (R201). -/
def ParamFile.all (p : ParamFile Bool) : Bool :=
  p.amount && p.inputGain && p.time && p.diffusion && p.lp && p.size

/-- `STATUS` (R42, R310). -/
def State.statusWord (s : State) : Word :=
  0#18 ++ BitVec.ofBool s.pv.size ++ BitVec.ofBool s.pv.lp ++ BitVec.ofBool s.pv.diffusion
    ++ BitVec.ofBool s.pv.time ++ BitVec.ofBool s.pv.inputGain ++ BitVec.ofBool s.pv.amount
    ++ s.fcause ++ 0#1 ++ BitVec.ofBool s.fault ++ BitVec.ofBool s.busy ++ BitVec.ofBool s.inited

/-- `FAULT_UPC` (R51, R310). -/
def State.faultUpcWord (s : State) : Word := 0#15 ++ BitVec.ofBool s.fsrc ++ 0#7 ++ s.fupc

end Sys2Proof.Machine
end

