-- ==== Sys2Proof/Machine/Float.lean ====
section
/-! DEFINITION. IEEE 754 binary32 arithmetic on bit patterns (spec/00_scope.md R10, R11, R15, R16;
the format itself is general knowledge, G1 of 93_implementation_defined.md; entry 15).
A finite value is `(-1)^sign * mant * 2^(bexp - 150)`; every operation computes exactly and then
rounds once, to nearest with ties to even. -/

namespace Sys2Proof.F32

/-- The sign bit. -/
def isNeg (a : F32) : Bool := decide (2 ^ 31 ≤ a.toNat)

/-- The 8-bit exponent field. -/
def expField (a : F32) : Nat := a.toNat / 2 ^ 23 % 2 ^ 8

/-- The 23-bit fraction field. -/
def fracField (a : F32) : Nat := a.toNat % 2 ^ 23

/-- The pattern with exponent field `e` and fraction `f` packed as one number `e * 2^23 + f`. -/
def pack (neg : Bool) (magnitude : Nat) : F32 :=
  BitVec.ofNat 32 (if neg then 2 ^ 31 + magnitude else magnitude)

/-- The canonical quiet NaN (decision D7). -/
def canonicalNaN : F32 := 0x7FC00000#32

/-- A zero of the given sign. -/
def zero (neg : Bool) : F32 := pack neg 0

/-- An infinity of the given sign. -/
def inf (neg : Bool) : F32 := pack neg 0x7F800000

def isNaN (a : F32) : Bool := expField a == 255 && fracField a != 0

def isInf (a : F32) : Bool := expField a == 255 && fracField a == 0

def isZero (a : F32) : Bool := expField a == 0 && fracField a == 0

def isSubnormal (a : F32) : Bool := expField a == 0 && fracField a != 0

def isFinite (a : F32) : Bool := expField a != 255

/-- The biased exponent of a finite value: a subnormal scales as exponent field 1. -/
def bexp (a : F32) : Nat := if expField a = 0 then 1 else expField a

/-- The significand of a finite value, hidden bit included. -/
def mant (a : F32) : Nat := if expField a = 0 then fracField a else 2 ^ 23 + fracField a

/-- The significand with its sign. -/
def signedMant (a : F32) : Int := if isNeg a then -(mant a : Int) else (mant a : Int)

/-- `m / 2^d` rounded to the nearest integer, ties to even. -/
def roundShift (m d : Nat) : Nat :=
  let q := m / 2 ^ d
  let twice := 2 * (m % 2 ^ d)
  if 2 ^ d < twice then q + 1
  else if twice = 2 ^ d then q + q % 2
  else q

/-- The packed magnitude of `m * 2^(x - 150)` (`m` not 0) rounded to binary32, infinity on overflow:
`t` is the biased exponent the result scales as before rounding. -/
def roundMagnitude (m : Nat) (x : Int) : Nat :=
  let t : Int := max 1 (x + (Nat.log2 m : Int) - 23)
  if 255 ≤ t then 0x7F800000
  else
    let kept := if x ≤ t then roundShift m (t - x).toNat else m * 2 ^ (x - t).toNat
    min ((t - 1).toNat * 2 ^ 23 + kept) 0x7F800000

/-- The binary32 value nearest to `(-1)^neg * m * 2^(x - 150)`, ties to even (R10). -/
def round (neg : Bool) (m : Nat) (x : Int) : F32 :=
  if m = 0 then zero neg else pack neg (roundMagnitude m x)

/-- `neg(a)` flips the sign bit, whatever the value (R10). -/
def neg (a : F32) : F32 := a ^^^ 0x80000000#32

/-- IEEE addition (R10). An exact zero sum is `+0.0` unless both operands are negative. -/
def ieeeAdd (a b : F32) : F32 :=
  if isNaN a || isNaN b then canonicalNaN
  else if isInf a then (if isInf b && isNeg a != isNeg b then canonicalNaN else a)
  else if isInf b then b
  else
    let x := min (bexp a) (bexp b)
    let sum : Int := signedMant a * 2 ^ (bexp a - x) + signedMant b * 2 ^ (bexp b - x)
    if sum = 0 then zero (isNeg a && isNeg b) else round (decide (sum < 0)) sum.natAbs x

/-- IEEE multiplication (R10). -/
def ieeeMul (a b : F32) : F32 :=
  let neg := isNeg a != isNeg b
  if isNaN a || isNaN b then canonicalNaN
  else if isInf a || isInf b then (if isZero a || isZero b then canonicalNaN else inf neg)
  else round neg (mant a * mant b) ((bexp a : Int) + (bexp b : Int) - 150)

/-- With `FTZ` on, a subnormal becomes a zero of the same sign (R15). -/
def flush (ftz : Bool) (a : F32) : F32 := if ftz && isSubnormal a then zero (isNeg a) else a

/-- `add(a, b)` (R10, R15). -/
def add (ftz : Bool) (a b : F32) : F32 := flush ftz (ieeeAdd (flush ftz a) (flush ftz b))

/-- `sub(a, b)` (R10, R15). -/
def sub (ftz : Bool) (a b : F32) : F32 := add ftz a (neg b)

/-- `mul(a, b)` (R10, R15). -/
def mul (ftz : Bool) (a b : F32) : F32 := flush ftz (ieeeMul (flush ftz a) (flush ftz b))

/-- `f32(n)`, exact for `n < 2^24` (R10, R16). -/
def ofNat (n : Nat) : F32 := round false n 150

/-- `a >= 0` under IEEE comparison: false for a NaN, true for `-0.0` (R11). -/
def geZero (a : F32) : Bool := !isNaN a && (!isNeg a || isZero a)

/-- A valid offset: not NaN, `>= 0`, finite (R212). -/
def validOffset (a : F32) : Bool := geZero a && !isInf a

/-- `floor(a)` of a finite `a >= 0` (R7). -/
def floorNat (a : F32) : Nat := mant a * 2 ^ bexp a / 2 ^ 150

end Sys2Proof.F32
end

