-- ==== Sys2Proof/Machine/Ops.lean ====
section
/-! DEFINITION. The shared operations: register updates, taking a fault (spec/60_exceptions.md R410),
arithmetic under the block's `FTZ`, storage conversion (spec/20_memory.md R75, R76), arena access by
line and offset (R72), reading and storing a line. -/

namespace Sys2Proof.Machine

/-- What a meaning answers. -/
abbrev Result := Host.Outcome State Fault Refusal

/-! Register updates. -/

/-- `UPC <- UPC + 1` (R29). -/
def State.advance (s : State) : State := { s with upc := s.upc + 1 }

/-- `ACC <- v` (R22). -/
def State.setAcc (v : F32) (s : State) : State := { s with acc := v }

/-- `PREV <- v; PREVTAG <- line` (R214). -/
def State.setRead (line : LineId) (v : F32) (s : State) : State :=
  { s with prev := v, prevTag := some line }

/-- `PREVTAG <- none` (R23). -/
def State.clearTag (s : State) : State := { s with prevTag := none }

/-- `S[r] <- v; V[r] <- 1` (R25). -/
def State.setScalar (r : ScalarReg) (v : F32) (s : State) : State :=
  { s with sreg := s.sreg.set r v, sv := s.sv.set r true }

/-- `FL <- v` or `FR <- v` (R26). -/
def State.setChannel (ch : Channel) (v : F32) (s : State) : State :=
  match ch with
  | .left => { s with fl := v }
  | .right => { s with fr := v }

/-! Faults. -/

/-- Fault entry, `raise F` (R410): the fault record is written and the engine halts; nothing else
changes (R411). There is no return from a fault but `Reset` (R414). -/
def State.raise (c : FaultCause) (s : State) : State :=
  if c.isHostCommand then
    { s with fault := true, fcause := c.code, fsrc := true, fupc := 0#9, fframe := 0#32, phase := .idle }
  else
    { s with fault := true, fcause := c.code, fsrc := false, fupc := BitVec.ofNat 9 s.upc,
             fframe := s.fidx, phase := .idle }

/-- The tick guard (R202): every micro-instruction but NOP and START needs an open tick. -/
def guarded (s : State) (run : Result) : Result :=
  if s.tickOpen then run else .next (s.raise .noTick)

/-- Read `S[r]`, or UNWRITTEN_SCALAR when `V[r] = 0` (R25). -/
def withScalar (r : ScalarReg) (s : State) (use : F32 → Result) : Result :=
  if s.sv[r] then use s.sreg[r] else .next (s.raise .unwrittenScalar)

/-! Arithmetic under the block's `FTZ` (R10, R15). -/

def State.add (s : State) (a b : F32) : F32 := F32.add s.cfg.ftz a b

def State.sub (s : State) (a b : F32) : F32 := F32.sub s.cfg.ftz a b

def State.mul (s : State) (a b : F32) : F32 := F32.mul s.cfg.ftz a b

/-! Storage conversion (R75 to R77). -/

/-- The magnitude of a product with 32768.0 truncated toward zero, saturated at `limit` (R76). -/
def q15Magnitude (t : F32) (limit : Nat) : Nat :=
  if F32.isInf t then limit else min (F32.floorNat t) limit

/-- `enc(v)` (R75, R76). Under Q15S the 16-bit unit is zero-extended (entry 17). -/
def encode32 (fmt : StoreFmt) (ftz : Bool) (v : F32) : Word :=
  match fmt with
  | .f32 => v
  | .q15s =>
    if F32.isNaN v then 0#32
    else
      let t := F32.mul ftz v 0x47000000#32
      if F32.isNeg t then BitVec.ofNat 32 ((2 ^ 16 - q15Magnitude t 32768) % 2 ^ 16)
      else BitVec.ofNat 32 (q15Magnitude t 32767)

/-- `dec(u)` (R75, R76); under Q15S `sext_16(u) / 32768`, exact. -/
def decode32 (fmt : StoreFmt) (u : Word) : F32 :=
  match fmt with
  | .f32 => u
  | .q15s =>
    let n : Int := (u.setWidth 16).toInt
    F32.round (decide (n < 0)) n.natAbs 135

/-- `enc` of this block. -/
def State.enc (s : State) (v : F32) : Word := encode32 s.cfg.storeFmt s.cfg.ftz v

/-- `dec` of this block. -/
def State.dec (s : State) (u : Word) : F32 := decode32 s.cfg.storeFmt u

/-! The arena by line and offset. -/

/-- `cell(i, k) = BASE[i] + ((WP[i] + k) mod LEN[i])` (R72). -/
def State.cell (line : LineId) (k : Nat) (s : State) : Nat :=
  s.base[line] + (s.wp[line] + k) % s.len[line]

/-- `dec(ArenaRead(cell(line, k)))`; `none` outside the arena (entry 12). -/
def State.readUnit (line : LineId) (k : Nat) (s : State) : Option F32 :=
  if s.cell line k < arenaUnits then some (s.dec (readCell s.arena (s.cell line k))) else none

/-- What reading a line at an offset gives. -/
inductive LineRead where
  | value (v : F32)
  /-- OFFSET_RANGE (R212). -/
  | outOfRange
  /-- A needed unit lies outside the arena (entry 12). -/
  | noUnit (index : Nat)
deriving DecidableEq, Repr

/-- One unit, read exactly (R213, `f = 0`). -/
def State.readExact (line : LineId) (i : Nat) (s : State) : LineRead :=
  match s.readUnit line i with
  | some v => .value v
  | none => .noUnit (s.cell line i)

/-- Linear interpolation `a + (b - a) * f` between the units at `i` and `i + 1` (R213). -/
def State.readBetween (line : LineId) (i : Nat) (f : F32) (s : State) : LineRead :=
  match s.readUnit line i, s.readUnit line (i + 1) with
  | some a, some b => .value (s.add a (s.mul (s.sub b a) f))
  | none, _ => .noUnit (s.cell line i)
  | some _, none => .noUnit (s.cell line (i + 1))

/-- `READ(line, off)` (R212, R213). -/
def State.readLine (line : LineId) (off : F32) (s : State) : LineRead :=
  if F32.validOffset off then
    let i := F32.floorNat off
    let f := s.sub off (F32.ofNat i)
    if F32.isZero f then
      if i < s.len[line] then s.readExact line i else .outOfRange
    else if i + 1 < s.len[line] then s.readBetween line i f
    else .outOfRange
  else .outOfRange

/-- Read, accumulate `v * g`, tag, advance: what RD and RDM do after computing the offset (R214). -/
def accumulateRead (line : LineId) (off g : F32) (s : State) : Result :=
  match s.readLine line off with
  | .value v => .next ((s.setAcc (s.add s.acc (s.mul v g))).setRead line v).advance
  | .outOfRange => .next (s.raise .offsetRange)
  | .noUnit a => .fault (.arenaIndex a)

/-- The integer offset a write goes to: `floor(off)` when `0 <= off < LEN[line]` (R231). -/
def State.writeOffset (line : LineId) (off : F32) (s : State) : Option Nat :=
  if F32.validOffset off && decide (F32.floorNat off < s.len[line]) then some (F32.floorNat off)
  else none

/-- Store `enc(ACC)` at offset `k` of the line, continue with `acc'` in `ACC`, clear the tag,
advance: the common part of WRAP and WR (R230, R232). -/
def storeAcc (line : LineId) (k : Nat) (acc' : F32) (s : State) : Result :=
  if s.cell line k < arenaUnits then
    .next ({ s with arena := writeCell s.arena (s.cell line k) (s.enc s.acc) }.setAcc acc').clearTag.advance
  else .fault (.arenaIndex (s.cell line k))

end Sys2Proof.Machine
end

