-- ==== Sys2Proof/Machine/Commands.lean ====
section
/-! DEFINITION. The host's side: the commands INIT (spec/45_init.md R250) and PROCESS
(spec/47_host_interface.md R300), the register window (R310), the frame memory, and the hardware
reset (spec/70_reset_and_hazards.md R500). -/

namespace Sys2Proof.Machine

/-- The sum of the lengths of the lines before line `n` (R251). -/
def lengthsBefore (len : Vector Nat 10) (n : Nat) : Nat := (len.toList.take n).sum

/-- INIT's effect (R250 to R254). -/
def State.initialise (s : State) : State :=
  { s with
    base := Vector.ofFn fun i => lengthsBefore s.len i
    wp := #v[0, 0, 0, 0, 0, 0, 0, 0, 0, 0]
    ph := #v[0#32, 0#32]
    inc := #v[s.cfg.lfo1Inc, s.cfg.lfo2Inc]
    sreg := (s.sreg.set 2 0#32).set 3 0#32
    sv := (s.sv.set 2 true).set 3 true
    param := { s.param with lp := 0x3F333333#32, diffusion := 0x3F200000#32, size := 0x3F800000#32 }
    pv := { s.pv with lp := true, diffusion := true, size := true }
    inited := true }

/-- The command INIT (R250), priority of R403. -/
def commandInit (s : State) : State :=
  if s.busy then s.raise .busy
  else if s.inited then s.raise .reinit
  else if arenaUnits < lengthsBefore s.len 10 then s.raise .arenaOverflow
  else s.initialise

/-- `FRAME_WINDOW(base, n)` (R82), the platform's predicate in the forms of entry 11: an empty range
always holds, and no range overlaps the register window (R300). -/
def Params.frameWindowHolds (p : Params) (base n : Nat) : Bool :=
  n == 0 ||
    ((match p.frameWindow with
      | .all => true
      | .ranges allowed => allowed.any fun r => decide (r.1 ≤ base) && decide (base + n ≤ r.2)
      | .platform k => Config.platformWindow k base n)
     && (decide (base + n ≤ p.regBase) || decide (p.regBase + 256 ≤ base)))

/-- PROCESS's effect (R300). -/
def State.startBlock (s : State) : State :=
  { s with
    blkBase := s.frameBase
    blkCount := s.frameCount
    fidx := 0#32
    framesDone := 0#32
    phase := if s.frameCount = 0#32 then .idle else .fetch }

/-- The block fits the 32-bit space and the platform's window (R82, R300). -/
def State.blockFits (s : State) : Bool :=
  decide (s.frameBase.toNat + 8 * s.frameCount.toNat ≤ 2 ^ 32)
    && Params.frameWindowHolds s.cfg s.frameBase.toNat (8 * s.frameCount.toNat)

/-- The command PROCESS (R300), priority of R403. -/
def commandProcess (s : State) : State :=
  if s.busy then s.raise .busy
  else if !s.inited then s.raise .notInit
  else if s.frameBase.toNat % 4 ≠ 0 then s.raise .frameAlign
  else if !s.blockFits then s.raise .frameRange
  else s.startBlock

/-- A write of `CTRL` (R301, R41); ignored while `FAULT = 1` (R413). -/
def ctrlWrite (v : Word) (s : State) : State :=
  if s.fault then s
  else if v = 0#32 then s
  else if v = 1#32 then commandInit s
  else if v = 2#32 then commandProcess s
  else s.raise .cmdInvalid

/-- `HostWrite(o, v)` at an aligned offset of the window (R310, R302, R303). -/
def hostWrite (offset : Nat) (v : Word) (s : State) : State :=
  match offset with
  | 0x00 => ctrlWrite v s
  | 0x08 => { s with frameBase := v }
  | 0x0C => { s with frameCount := v }
  | 0x10 => { s with param := { s.param with amount := v }, pv := { s.pv with amount := true } }
  | 0x14 => { s with param := { s.param with inputGain := v }, pv := { s.pv with inputGain := true } }
  | 0x18 => { s with param := { s.param with time := v }, pv := { s.pv with time := true } }
  | 0x1C => { s with param := { s.param with diffusion := v }, pv := { s.pv with diffusion := true } }
  | 0x20 => { s with param := { s.param with lp := v }, pv := { s.pv with lp := true } }
  | 0x24 => { s with param := { s.param with size := v }, pv := { s.pv with size := true } }
  | _ => s

/-- The value `HostRead(o)` returns at an aligned offset of the window (R310). -/
def hostRead (offset : Nat) (s : State) : Word :=
  match offset with
  | 0x04 => s.statusWord
  | 0x08 => s.frameBase
  | 0x0C => s.frameCount
  | 0x28 => s.faultUpcWord
  | 0x2C => s.fframe
  | 0x30 => s.framesDone
  | 0x34 => s.inc[0]
  | 0x38 => s.inc[1]
  | _ => 0#32

/-- An offset the host may access: aligned and inside the window (R310). -/
def windowOffset (offset : Nat) : Bool := offset % 4 == 0 && decide (offset ≤ 0xFC)

/-- The byte belongs to a frame of the running block (R92, R514). -/
def State.ownsByte (a : Nat) (s : State) : Bool :=
  s.busy && decide (s.blkBase.toNat ≤ a) && decide (a < s.blkBase.toNat + 8 * s.blkCount.toNat)

/-- The byte lies in the register window, which takes no byte access (R310). -/
def State.inWindow (a : Nat) (s : State) : Bool :=
  decide (s.cfg.regBase ≤ a) && decide (a < s.cfg.regBase + 256)

/-- A host access to a byte of frame memory, where the spec lets the host make it (entry 14). -/
def withFrameByte (a : Nat) (s : State) (access : State) : Result :=
  if 2 ^ 32 ≤ a then .refused (.hostAddress a)
  else if s.inWindow a then .refused (.hostAccess (a - s.cfg.regBase))
  else if s.ownsByte a then .refused (.frameOwned a)
  else .next access

/-- Hardware reset (R500, R60). The elements the spec leaves unspecified, the arena among them, take
the values the move brings (entry 5). Frame memory, the ROM and the line lengths stay. -/
def hardwareReset (d : Draw) (s : State) : State :=
  { inited := false
    phase := .idle
    fault := false
    fcause := 0#4
    fupc := 0#9
    fsrc := false
    fframe := 0#32
    frameBase := 0#32
    frameCount := 0#32
    param := d.param
    pv := .fill false
    blkBase := d.blkBase
    blkCount := d.blkCount
    fidx := d.fidx
    framesDone := 0#32
    upc := 0
    tickOpen := false
    acc := d.acc
    prev := d.prev
    prevTag := none
    latch := d.latch
    lfov := d.lfov
    sreg := d.sreg
    sv := #v[false, false, false, false]
    fl := d.fl
    fr := d.fr
    len := s.len
    base := d.base
    wp := d.wp
    ph := d.ph
    inc := #v[0#32, 0#32]
    arena := arenaOf s.cfg.storeFmt d.arena
    mem := s.mem
    ucode := s.ucode
    cfg := s.cfg
    moves := s.moves
    hostData := s.hostData }

end Sys2Proof.Machine
end

