-- ==== Sys2Proof/Machine/Wave.lean ====
section
/-! DEFINITION. `WAVE` (spec/41_tick_lfo_input.md R203). -/

namespace Sys2Proof.Wave

/-- `floor(2 * pi * 2^192)`. -/
def twoPi : Nat := 0x6487ed5110b4611a62633145c06e0e68948127044533e63a0

/-- The distance, in 2^-32 cycles, of a phase from the trough of the sine at `3 * 2^30`. -/
def fromTrough (p : Word) : Nat :=
  let d := (p.toNat + 2 ^ 32 - 3 * 2 ^ 30) % 2 ^ 32
  min d (2 ^ 32 - d)

/-- The alternating series `t_k - t_(k+1) + ...` where `t_(k+1) = t_k * theta^2 / ((2k+1)(2k+2))`, in
fixed point with 192 fraction bits; its terms decrease for `theta <= pi`. -/
def series (thetaSq : Nat) : Nat → Nat → Nat → Nat
  | 0, _, _ => 0
  | fuel + 1, k, t =>
    t - series thetaSq fuel (k + 1) (t * thetaSq / 2 ^ 192 / ((2 * k + 1) * (2 * k + 2)))

/-- `0.5 + 0.5 * sin(2*pi*p / 2^32)` = `(1 - cos theta) / 2`, `theta` the angle from the trough, in
units of 2^-192 (entry 9). -/
def sineFixed (p : Word) : Nat :=
  let theta := twoPi * fromTrough p / 2 ^ 32
  let thetaSq := theta * theta / 2 ^ 192
  series thetaSq 36 1 (thetaSq / 4)

/-- The reference waveform: the binary32 value nearest to it, ties to even (R203). -/
def sine (p : Word) : F32 := F32.round false (sineFixed p) (-42)

/-- A value `WAVE` may take: `+0.0` or a normal number up to `1.0` (R203). -/
def inRange (v : F32) : Bool := v == 0#32 || (decide (0x00800000 ≤ v.toNat) && decide (v.toNat ≤ 0x3F800000))

/-- The laws every `WAVE` satisfies, imposed on the candidate value `v` at phase `p` (R203). The
sine's values pass unchanged (entry 9). -/
def lawful (p : Word) (v : F32) : F32 :=
  if p = 0#32 then 0x3F000000#32
  else if p = 0x40000000#32 then 0x3F800000#32
  else if p = 0x80000000#32 then 0x3F000000#32
  else if p = 0xC0000000#32 then 0x00000000#32
  else if inRange v then v
  else 0x3F000000#32

/-- `WAVE(p)` of the implementation (R203). -/
def value (kind : WaveKind) (p : Word) : F32 :=
  match kind with
  | .sine => lawful p (sine p)
  | .platform k => lawful p (Config.platformWave k p)

end Sys2Proof.Wave
end

