-- ==== Sys2Proof/Machine/Operands.lean ====
section
/-! DEFINITION. What an operand denotes in a state (spec/30_encoding.md R110 to R112,
spec/42_delay_read.md R210). -/

namespace Sys2Proof.Machine

/-- `COEF(csel)` (R110); it reads the latches, never the parameter registers (R24). -/
def State.coef (c : Coef) (s : State) : F32 :=
  match c with
  | .zero => 0x00000000#32
  | .one => 0x3F800000#32
  | .two => 0x40000000#32
  | .kap => s.latch.diffusion
  | .negKap => F32.neg s.latch.diffusion
  | .krt => s.latch.time
  | .gain => s.latch.inputGain
  | .klp => s.latch.lp

/-- The input of RDIN (R204): a channel, or the sum of both. -/
def State.source (src : InSrc) (s : State) : F32 :=
  match src with
  | .left => s.fl
  | .right => s.fr
  | .both => s.add s.fl s.fr

/-- A channel's frame register (R26). -/
def State.channel (ch : Channel) (s : State) : F32 :=
  match ch with
  | .left => s.fl
  | .right => s.fr

/-- `OFFSET_R(line, omode, K)` (R210, R111). -/
def State.offsetR (line : LineId) (off : Offset) (s : State) : F32 :=
  match off with
  | .imm k => F32.ofNat k
  | .scaled k => s.mul (F32.ofNat k) s.latch.size
  | .tail => s.mul (F32.ofNat (s.len[line] - 1)) s.latch.size

/-- `OFFSET_M(base, depth, lfo)` (R210, R112). -/
def State.offsetM (base depth : Nat) (lfo : LfoId) (s : State) : F32 :=
  s.add (s.mul (F32.ofNat base) s.latch.size) (s.mul (F32.ofNat depth) s.lfov[lfo])

end Sys2Proof.Machine
end

