-- ==== Sys2Proof/Machine/DelayRead.lean ====
section
/-! DEFINITION. RD and RDM (spec/42_delay_read.md). -/

namespace Sys2Proof.Machine

/-- `RD line, offset, coef` (R215). -/
def execRd (line : LineId) (off : Offset) (coef : Coef) (s : State) : Result :=
  guarded s (accumulateRead line (s.offsetR line off) (s.coef coef) s)

/-- `RDM line, #base*sz + depth*LFOn, coef` (R216). -/
def execRdm (line : LineId) (base depth : Nat) (lfo : LfoId) (coef : Coef) (s : State) : Result :=
  guarded s (accumulateRead line (s.offsetM base depth lfo) (s.coef coef) s)

end Sys2Proof.Machine
end

