-- ==== Sys2Proof/Machine/DelayWrite.lean ====
section
/-! DEFINITION. WRAP and WR (spec/43_delay_write.md). -/

namespace Sys2Proof.Machine

/-- `WRAP line, coef` (R230): store ACC at offset 0, then `ACC <- ACC * g + PREV`. -/
def execWrap (line : LineId) (coef : Coef) (s : State) : Result :=
  guarded s
    (if s.prevTag = some line then storeAcc line 0 (s.add (s.mul s.acc (s.coef coef)) s.prev) s
     else .next (s.raise .apNoRead))

/-- `WR line, offset, coef` (R232): store ACC at `floor(off)`, then scale it. -/
def execWr (line : LineId) (off : Offset) (coef : Coef) (s : State) : Result :=
  guarded s
    (match s.writeOffset line (s.offsetR line off) with
     | some k => storeAcc line k (s.mul s.acc (s.coef coef)) s
     | none => .next (s.raise .offsetRange))

end Sys2Proof.Machine
end

