-- ==== Sys2Proof/Machine/Frame.lean ====
section
/-! DEFINITION. XFADE and EOF, and the frame fetch (spec/46_reverb_program.md). -/

namespace Sys2Proof.Machine

/-- The cross-fade `F + (w - F) * kAMT`, three roundings (R270). -/
def State.crossFade (s : State) (f w : F32) : F32 := s.add f (s.mul (s.sub w f) s.latch.amount)

/-- `XFADE ch, sreg` (R270). -/
def execXfade (ch : Channel) (reg : ScalarReg) (s : State) : Result :=
  guarded s
    (withScalar reg s fun w => .next (s.setChannel ch (s.crossFade (s.channel ch) w)).advance)

/-- The byte address of the current frame, `BLK_BASE + 8 * FIDX` (R80, R271, R274). -/
def State.frameAddr (s : State) : Nat := s.blkBase.toNat + 8 * s.fidx.toNat

/-- The effect of EOF (R271): both channels are written back, the frame is counted, the tick ends. -/
def State.closeFrame (s : State) : State :=
  { s with
    mem := writeFrameWord (writeFrameWord s.mem s.frameAddr s.fl) (s.frameAddr + 4) s.fr
    fidx := s.fidx + 1#32
    framesDone := s.framesDone + 1#32
    tickOpen := false
    phase := if s.fidx + 1#32 < s.blkCount then .fetch else .idle }

/-- `EOF` (R271). It does not advance UPC (R29). -/
def execEof (s : State) : Result :=
  guarded s
    (if s.frameAddr + 8 ≤ 2 ^ 32 then .next s.closeFrame else .fault (.frameAddress s.frameAddr))

/-- The frame fetch (R274): both channels are read, the microprogram starts at 0. -/
def fetchFrame (s : State) : Result :=
  if s.frameAddr + 8 ≤ 2 ^ 32 then
    .next { s with
      fl := readFrameWord s.mem s.frameAddr
      fr := readFrameWord s.mem (s.frameAddr + 4)
      upc := 0
      phase := .run }
  else .fault (.frameAddress s.frameAddr)

end Sys2Proof.Machine
end

