-- ==== Sys2Proof/Machine/Scalar.lean ====
section
/-! DEFINITION. WROUT, LD and LP (spec/44_scalar.md). -/

namespace Sys2Proof.Machine

/-- `WROUT sreg, coef` (R240): store ACC, then scale it. -/
def execWrout (reg : ScalarReg) (coef : Coef) (s : State) : Result :=
  guarded s (.next ((s.setScalar reg s.acc).setAcc (s.mul s.acc (s.coef coef))).advance)

/-- `LD sreg` (R241). -/
def execLd (reg : ScalarReg) (s : State) : Result :=
  guarded s (withScalar reg s fun v => .next (s.setAcc v).advance)

/-- The one-pole step `s + (acc - s) * (1 - c)`, four roundings (R242). -/
def State.onePole (s : State) (old c : F32) : F32 :=
  s.add old (s.mul (s.sub s.acc old) (s.sub 0x3F800000#32 c))

/-- `LP sreg, coef` (R242). -/
def execLp (reg : ScalarReg) (coef : Coef) (s : State) : Result :=
  guarded s
    (withScalar reg s fun old =>
      .next ((s.setScalar reg (s.onePole old (s.coef coef))).setAcc (s.onePole old (s.coef coef))).advance)

end Sys2Proof.Machine
end

