-- ==== Sys2Proof/Machine/Tick.lean ====
section
/-! DEFINITION. NOP, START and RDIN (spec/41_tick_lfo_input.md). -/

namespace Sys2Proof.Machine

/-- `NOP` (R200): only the advance of UPC; no tick guard. -/
def execNop (s : State) : Result := .next s.advance

/-- The phase of LFO `k` one step on (R203). -/
def State.nextPhase (k : LfoId) (s : State) : Word := s.ph[k] + s.inc[k]

/-- The write index one sample on, `(WP - 1) mod LEN` (R31). -/
def State.nextWp (i : LineId) (s : State) : Nat := (s.wp[i] + s.len[i] - 1) % s.len[i]

/-- The effect of START before the advance of UPC (R201). -/
def State.openTick (s : State) : State :=
  { s with
    latch := s.param
    wp := Vector.ofFn fun i => s.nextWp i
    ph := Vector.ofFn fun k => s.nextPhase k
    lfov := Vector.ofFn fun k => Wave.value s.cfg.wave (s.nextPhase k)
    acc := 0#32
    prevTag := none
    sv := (s.sv.set 0 false).set 1 false
    tickOpen := true }

/-- `START` (R201): TICK_OPEN, then PARAM_UNSET, then the tick opens. -/
def execStart (s : State) : Result :=
  if s.tickOpen then .next (s.raise .tickOpen)
  else if s.pv.all then .next s.openTick.advance
  else .next (s.raise .paramUnset)

/-- `RDIN src, coef` (R204). -/
def execRdin (src : InSrc) (coef : Coef) (s : State) : Result :=
  guarded s (.next (s.setAcc (s.add s.acc (s.mul (s.source src) (s.coef coef)))).advance)

end Sys2Proof.Machine
end

