-- ==== Sys2Proof/Machine/Dispatch.lean ====
section
/-! DEFINITION. Each instruction's meaning (spec/30_encoding.md R101). -/

namespace Sys2Proof.Machine

def exec (i : Instr) (s : State) : Host.Outcome State Fault Refusal :=
  match i with
  | .nop => Sys2Proof.Machine.execNop s
  | .start => Sys2Proof.Machine.execStart s
  | .rdin src coef => Sys2Proof.Machine.execRdin src coef s
  | .rd line off coef => Sys2Proof.Machine.execRd line off coef s
  | .rdm line base depth lfo coef => Sys2Proof.Machine.execRdm line base depth lfo coef s
  | .wrap line coef => Sys2Proof.Machine.execWrap line coef s
  | .wr line off coef => Sys2Proof.Machine.execWr line off coef s
  | .wrout reg coef => Sys2Proof.Machine.execWrout reg coef s
  | .ld reg => Sys2Proof.Machine.execLd reg s
  | .lp reg coef => Sys2Proof.Machine.execLp reg coef s
  | .xfade ch reg => Sys2Proof.Machine.execXfade ch reg s
  | .eof => Sys2Proof.Machine.execEof s

end Sys2Proof.Machine
end

