-- ==== Sys2Proof/Machine/Sequencer.lean ====
section
/-! DEFINITION. The engine micro-step (spec/46_reverb_program.md R274) and the moves of the
interleaving (spec/10_state.md R20). -/

namespace Sys2Proof.Machine

/-- One micro-instruction of the ROM: UPC_RANGE, then ILLEGAL, then the word's meaning (R274, R402). -/
def runWord (s : State) : Result :=
  match s.ucode[s.upc]? with
  | none => .next (s.raise .upcRange)
  | some w =>
    match decode w with
    | .illegal _ => .next (s.raise .illegal)
    | .ok i => exec i s

/-- ENGINE_STEP (R274). While `PHASE = IDLE` or `FAULT = 1` the engine takes no step: every element
keeps its value (R436, R413; entry 3). -/
def engineStep (s : State) : Result :=
  if s.fault then .next s
  else match s.phase with
    | .idle => .next s
    | .fetch => fetchFrame s
    | .run => runWord s

/-- One move of the interleaving (R20, R310, R500). -/
def takeMove (m : Move) (s : State) : Result :=
  match m with
  | .engine => engineStep s
  | .hostRead o =>
    if windowOffset o then .next { s with hostData := hostRead o s } else .refused (.hostAccess o)
  | .hostWrite o v => if windowOffset o then .next (hostWrite o v s) else .refused (.hostAccess o)
  | .frameRead a => withFrameByte a s { s with hostData := (readCell s.mem a).setWidth 32 }
  | .frameWrite a v => withFrameByte a s { s with mem := writeCell s.mem a v }
  | .reset d => .next (hardwareReset d s)

/-- `rom` with the word `w` at index `n`, NOPs filling a gap before it. -/
def placeWord (rom : List Word) (n : Nat) (w : Word) : List Word :=
  rom.take n ++ List.replicate (n - rom.length) 0#32 ++ w :: rom.drop (n + 1)

end Sys2Proof.Machine
end

