-- ==== Sys2Proof/Machine/Step.lean ====
section
/-! DEFINITION. One step of the model: the next move, or an engine micro-step when none is listed
(spec/10_state.md R20; entry 2). -/

namespace Sys2Proof.Machine

def step (s : State) : Host.Outcome State Fault Refusal :=
  match s.moves with
  | [] => engineStep s
  | m :: rest => takeMove m { s with moves := rest }

/-- The word placed in the ROM where the engine fetches next, with the engine running and about to
take its micro-step (entry 1). -/
def State.withFetchWord (s : State) (nbits w : Nat) : State :=
  { s with
    ucode := placeWord s.ucode s.upc (BitVec.ofNat 32 (w % 2 ^ nbits))
    phase := .run
    fault := false
    moves := [] }

end Sys2Proof.Machine
end

