-- ==== Sys2Proof/Safety.lean ====
section
/-! DEFINITION. What every state of a run satisfies, and what counts as a safe step. `State.Inv` rules
out the states no run reaches: the model's own faults (`Fault`) need such a state. -/

namespace Sys2Proof.Machine

/-- The open parameters keep the limits of R205: both increments nonzero, LFO1 the faster. -/
def Params.wf (p : Params) : Prop := 0 < p.lfo2Inc.toNat ∧ p.lfo2Inc.toNat < p.lfo1Inc.toNat

/-- The lines are where INIT puts them: `BASE[i]` is the sum of the lengths before `i`, and every
write index is inside its line (R30, R31, R251). -/
def State.linesPlaced (s : State) : Prop :=
  s.len = lineLengths ∧ (∀ i : LineId, s.base[i] = lengthsBefore lineLengths i) ∧
    ∀ i : LineId, s.wp[i] < s.len[i]

/-- The running block was accepted by PROCESS: aligned, inside the 32-bit space and the platform's frame
window, with a frame left to do (R81, R82, R35). -/
def State.blockRunning (s : State) : Prop :=
  s.inited = true ∧ s.fault = false ∧ s.blkBase.toNat % 4 = 0 ∧
    s.blkBase.toNat + 8 * s.blkCount.toNat ≤ 2 ^ 32 ∧
    Params.frameWindowHolds s.cfg s.blkBase.toNat (8 * s.blkCount.toNat) = true ∧ s.fidx.toNat < s.blkCount.toNat ∧
    s.framesDone = s.fidx

/-- The invariant of every run. -/
structure State.Inv (s : State) : Prop where
  /-- Both storages are in canonical form; every listed arena unit exists (R70). -/
  arenaWf : Arena.wf s.arena = true
  memWf : Memory.wf s.mem = true
  /-- A storage unit has the format's width (R70). -/
  unitsFit : ∀ c ∈ s.arena, unitOf s.cfg.storeFmt c.2 = c.2
  /-- `ROM_LEN <= 256` and `UPC` in `[0, ROM_LEN]` (R6, R29). -/
  romSize : s.ucode.length ≤ 256
  upcInRom : s.upc ≤ s.ucode.length
  /-- The line lengths are the source's (R30). -/
  lengths : s.len = lineLengths
  params : Params.wf s.cfg
  /-- After INIT the lines are placed, the increments loaded, the filter states valid (R250). -/
  placed : s.inited = true → s.linesPlaced
  increments : s.inited = true → s.inc = #v[s.cfg.lfo1Inc, s.cfg.lfo2Inc]
  filters : s.inited = true → s.sv[2] = true ∧ s.sv[3] = true
  /-- The fault record is empty until a fault, and a faulted block is idle (R36, R410). -/
  noRecord : s.fault = false → s.fcause = 0#4 ∧ s.fsrc = false ∧ s.fupc = 0#9 ∧ s.fframe = 0#32
  halted : s.fault = true → s.fcause ≠ 0#4 ∧ s.phase = .idle
  /-- `BUSY` only while an accepted block runs. -/
  running : s.phase ≠ .idle → s.blockRunning
  /-- A tick is open only while its microprogram runs, or after a fault inside it (R411). -/
  tick : s.tickOpen = true → s.phase = .run ∨ s.fault = true
  /-- In an open tick the LFO outputs obey the laws of `WAVE` (R203). -/
  waves : s.tickOpen = true → ∀ k : LfoId, Wave.inRange s.lfov[k] = true

/-- A step is safe when the model does not stop with a fault of its own. -/
def State.Safe (s : State) : Prop := ∀ f, step s ≠ .fault f

end Sys2Proof.Machine
end

