-- ==== Sys2Proof/Certificates/Slice0/Obligations.lean ====
section
/-! DEFINITION. The statements for the provers, from the numbered rules of spec/. `Sys2Proof.Claims`
holds the few words they are written in; each says again, in plain terms, what a rule says. -/

namespace Sys2Proof.Claims

open Sys2Proof.Machine

/-- An engine fault with this code has been taken in `s`, and nothing else has happened (R410, R411). -/
def engineFault (code : BitVec 4) (s : State) : State :=
  { s with fault := true, fcause := code, fsrc := false, fupc := BitVec.ofNat 9 s.upc,
           fframe := s.fidx, phase := .idle }

/-- A host-command fault with this code has been taken in `s`, and nothing else has happened (R410). -/
def hostFault (code : BitVec 4) (s : State) : State :=
  { s with fault := true, fcause := code, fsrc := true, fupc := 0#9, fframe := 0#32, phase := .idle }

/-- The state in which a move is made: the move itself is no longer to come. -/
def popped (rest : List Move) (s : State) : State := { s with moves := rest }

/-- The engine takes the next step, `rest` being the moves that come after it: no move is listed, or the
engine's is listed first (the form in which the model holds R20's interleaving, entry 2). -/
def EngineTurn (rest : List Move) (s : State) : Prop :=
  (s.moves = [] ∧ rest = []) ∨ s.moves = .engine :: rest

/-- A valid offset (R212): not NaN, `>= 0`, finite. -/
def ValidOffset (off : F32) : Prop :=
  F32.isNaN off = false ∧ F32.geZero off = true ∧ F32.isInf off = false

/-- The decoded sample at offset `k` of a line (R72, R77). -/
def sample (line : LineId) (k : Nat) (s : State) : F32 :=
  decode32 s.cfg.storeFmt (readCell s.arena (s.base[line] + (s.wp[line] + k) % s.len[line]))

/-- The unit at offset `k` of the line exists. -/
def UnitExists (line : LineId) (k : Nat) (s : State) : Prop :=
  s.base[line] + (s.wp[line] + k) % s.len[line] < 16384

/-- After a read of value `v` (R214). -/
def readDone (line : LineId) (v g : F32) (s : State) : State :=
  { s with acc := F32.add s.cfg.ftz s.acc (F32.mul s.cfg.ftz v g)
           prev := v
           prevTag := some line
           upc := s.upc + 1 }

/-- The answer `r` of a read of `line` at `off` with gain `g` (R212, R213, R214). -/
def ReadRule (line : LineId) (off g : F32) (s : State) (r : Result) : Prop :=
  let ftz := s.cfg.ftz
  let i := F32.floorNat off
  let f := F32.sub ftz off (F32.ofNat i)
  (¬ ValidOffset off → r = .next (engineFault 2#4 s)) ∧
  (ValidOffset off → F32.isZero f = true →
    (s.len[line] ≤ i → r = .next (engineFault 2#4 s)) ∧
    (i < s.len[line] → UnitExists line i s → r = .next (readDone line (sample line i s) g s))) ∧
  (ValidOffset off → F32.isZero f = false →
    (s.len[line] ≤ i + 1 → r = .next (engineFault 2#4 s)) ∧
    (i + 1 < s.len[line] → UnitExists line i s → UnitExists line (i + 1) s →
      r = .next (readDone line
        (F32.add ftz (sample line i s)
          (F32.mul ftz (F32.sub ftz (sample line (i + 1) s) (sample line i s)) f)) g s)))

/-- The answer `r` of a read of `line` at `off` when a unit it needs does not exist (entry 12). -/
def MissingUnitRule (line : LineId) (off : F32) (s : State) (r : Result) : Prop :=
  let i := F32.floorNat off
  let f := F32.sub s.cfg.ftz off (F32.ofNat i)
  ValidOffset off →
    (F32.isZero f = true → i < s.len[line] → ¬ UnitExists line i s →
      r = .fault (.arenaIndex (s.cell line i))) ∧
    (F32.isZero f = false → i + 1 < s.len[line] →
      (¬ UnitExists line i s → r = .fault (.arenaIndex (s.cell line i))) ∧
      (UnitExists line i s → ¬ UnitExists line (i + 1) s →
        r = .fault (.arenaIndex (s.cell line (i + 1)))))

/-- After a store of the accumulator at offset `k` of the line, `acc'` left in it (R230, R232). -/
def storeDone (line : LineId) (k : Nat) (acc' : F32) (s : State) : State :=
  { s with arena := writeCell s.arena (s.base[line] + (s.wp[line] + k) % s.len[line])
                      (encode32 s.cfg.storeFmt s.cfg.ftz s.acc)
           acc := acc'
           prevTag := none
           upc := s.upc + 1 }

/-- The sum of the lengths of the lines before `i` (R251). -/
def lengthSumBefore (s : State) (i : LineId) : Nat :=
  (Finset.univ.filter fun j : LineId => j < i).sum fun j => s.len[j]

/-- `n` bytes from `base` share a byte with the register window (R40, R300). -/
def OverlapsRegisterWindow (p : Params) (base n : Nat) : Prop :=
  base < p.regBase + 256 ∧ p.regBase < base + n

/-- The coefficient operand, where the instruction has one. -/
def coefOperand : Instr → Option Coef
  | .nop => none
  | .start => none
  | .rdin _ c => some c
  | .rd _ _ c => some c
  | .rdm _ _ _ _ c => some c
  | .wrap _ c => some c
  | .wr _ _ c => some c
  | .wrout _ c => some c
  | .ld _ => none
  | .lp _ c => some c
  | .xfade _ _ => none
  | .eof => none

/-- A word is ILLEGAL: the table of R113, row by row, on the word's fields. -/
def Illegal113 (w : Word) : Prop :=
  let op := w.extractLsb' 28 4
  let f27 := w.extractLsb' 24 4
  let csel := w.extractLsb' 21 3
  ((op = 0#4 ∨ op = 1#4 ∨ op = 0xB#4) ∧ w.extractLsb' 0 28 ≠ 0#28) ∨
  (op = 2#4 ∧ (2#4 < f27 ∨ w.extractLsb' 0 21 ≠ 0#21)) ∨
  ((op = 3#4 ∨ op = 6#4) ∧
    (9#4 < f27 ∨ w.extractLsb' 19 2 = 3#2 ∨ w.extractLsb' 13 6 ≠ 0#6 ∨
      (w.extractLsb' 19 2 = 2#2 ∧ w.extractLsb' 0 13 ≠ 0#13))) ∨
  (op = 4#4 ∧ 9#4 < f27) ∨
  (op = 5#4 ∧ (9#4 < f27 ∨ w.extractLsb' 0 21 ≠ 0#21)) ∨
  ((op = 7#4 ∨ op = 9#4) ∧ (3#4 < f27 ∨ w.extractLsb' 0 21 ≠ 0#21)) ∨
  (op = 8#4 ∧ (3#4 < f27 ∨ w.extractLsb' 0 21 ≠ 0#21 ∨ csel ≠ 0#3)) ∨
  (op = 0xA#4 ∧ (1#4 < f27 ∨ 3#4 < w.extractLsb' 20 4 ∨ w.extractLsb' 0 20 ≠ 0#20)) ∨
  0xC#4 ≤ op

/-- The exact value of a finite binary32, in units of 2^-149. -/
def units (a : F32) : Int := F32.signedMant a * 2 ^ (F32.bexp a - 1)

/-- `r` is a binary32 nearest to the exact value `exact / scale` (in units of 2^-149), and where two
are equally near it is the even one. -/
def NearestEven (exact scale : Int) (r : F32) : Prop :=
  F32.isFinite r = true ∧
  ∀ c : F32, F32.isFinite c = true →
    |exact - scale * units r| < |exact - scale * units c| ∨
    (|exact - scale * units r| = |exact - scale * units c| ∧
      (units c = units r ∨ r.toNat % 2 = 0))

/-- `r` is `exact / scale` rounded to nearest even, infinity from `(2^24 - 1/2) * 2^104` on. -/
def Rounded (exact scale : Int) (r : F32) : Prop :=
  (|exact| < scale * ((2 ^ 25 - 1) * 2 ^ 252) → NearestEven exact scale r) ∧
  (scale * ((2 ^ 25 - 1) * 2 ^ 252) ≤ |exact| → r = F32.inf (decide (exact < 0)))

/-- A size in `[-0.0, 1.0]` (R290). -/
def SizeInUnit (k : F32) : Prop := F32.isZero k = true ∨ k.toNat ≤ 0x3F800000

/-- `t` is `m` STARTs after `s` as far as the lines are concerned: between two STARTs anything may
happen that leaves `WP`, `BASE` and `LEN` alone. -/
def TicksLater : Nat → State → State → Prop
  | 0, s, t => t = s
  | m + 1, s, t => ∃ u v, TicksLater m s u ∧ v.wp = u.wp ∧ v.base = u.base ∧ v.len = u.len ∧
      v.tickOpen = false ∧ exec .start v = .next t ∧ t.tickOpen = true

/-- The six fields of the fault record, as `t` has them. -/
def withRecord (t s : State) : State :=
  { s with fault := t.fault, fcause := t.fcause, fsrc := t.fsrc, fupc := t.fupc, fframe := t.fframe,
           phase := t.phase }

/-- What a register-only instruction may write, taken from `t`; everything else from `s`. -/
def registerFrame (i : Instr) (t s : State) : State :=
  match i with
  | .nop => { s with upc := t.upc }
  | .start =>
    { withRecord t s with
      latch := t.latch, wp := t.wp, ph := t.ph, lfov := t.lfov, acc := t.acc, prevTag := t.prevTag,
      sv := (s.sv.set 0 t.sv[0]).set 1 t.sv[1], tickOpen := t.tickOpen, upc := t.upc }
  | .rdin _ _ => { withRecord t s with acc := t.acc, upc := t.upc }
  | .rd _ _ _ => { withRecord t s with acc := t.acc, prev := t.prev, prevTag := t.prevTag, upc := t.upc }
  | .rdm _ _ _ _ _ =>
    { withRecord t s with acc := t.acc, prev := t.prev, prevTag := t.prevTag, upc := t.upc }
  | .wrout r _ =>
    { withRecord t s with acc := t.acc, sreg := s.sreg.set r t.sreg[r], sv := s.sv.set r t.sv[r], upc := t.upc }
  | .ld _ => { withRecord t s with acc := t.acc, upc := t.upc }
  | .lp r _ => { withRecord t s with acc := t.acc, sreg := s.sreg.set r t.sreg[r], upc := t.upc }
  | .xfade .left _ => { withRecord t s with fl := t.fl, upc := t.upc }
  | .xfade .right _ => { withRecord t s with fr := t.fr, upc := t.upc }
  | .wrap _ _ => t
  | .wr _ _ _ => t
  | .eof => t

/-- The instruction stores neither to the arena nor to frame memory. -/
def RegisterOnly (i : Instr) : Prop :=
  match i with
  | .wrap _ _ => False
  | .wr _ _ _ => False
  | .eof => False
  | .nop => True
  | .start => True
  | .rdin _ _ => True
  | .rd _ _ _ => True
  | .rdm _ _ _ _ _ => True
  | .wrout _ _ => True
  | .ld _ => True
  | .lp _ _ => True
  | .xfade _ _ => True

/-- The parameter registers, their validity bits and the frame registers of another host. -/
def withHostRegisters (p : ParamFile F32) (v : ParamFile Bool) (b c : Word) (s : State) : State :=
  { s with param := p, pv := v, frameBase := b, frameCount := c }

/-- The same, on an answer. -/
def answerWithHostRegisters (p : ParamFile F32) (v : ParamFile Bool) (b c : Word) : Result → Result
  | .next t => .next (withHostRegisters p v b c t)
  | .fault f => .fault f
  | .refused r => .refused r

end Sys2Proof.Claims

open Sys2Proof Sys2Proof.Machine Sys2Proof.Claims

/-! Encoding. -/

/-- The examples of R118, word by word. -/
def Obligations.SpecWordsDecode : Prop :=
  decode 0x4027800A#32 = .ok (.rdm 0 10 60 0 .one) ∧
  decode 0x60080064#32 = .ok (.wr 0 (.scaled 100) .zero) ∧
  decode 0x30700000#32 = .ok (.rd 0 .tail .kap) ∧
  decode 0x50800000#32 = .ok (.wrap 0 .negKap) ∧
  decode 0x49BC9248#32 = .ok (.rdm 9 4680 100 1 .krt) ∧
  decode 0x92E00000#32 = .ok (.lp 2 .klp) ∧
  decode 0xA1100000#32 = .ok (.xfade .right 1) ∧
  ∀ w ∈ [0x30780000#32, 0x30700001#32, 0x80200000#32, 0xA0400000#32, 0x3A000000#32, 0xC0000000#32],
    ∃ why, decode w = .illegal why

/-- No bit of an encoding is dropped: every well-formed instruction decodes from its own word. -/
def Obligations.DecodeAfterEncode : Prop :=
  ∀ i : Instr, i.wf = true → decode (encode i) = .ok i

/-- Every legal word is the word of the instruction it decodes to, so no two words mean the same. -/
def Obligations.EncodeAfterDecode : Prop :=
  ∀ (w : Word) (i : Instr), decode w = .ok i → i.wf = true ∧ encode i = w

/-- A word is ILLEGAL exactly when the table of R113 says so; executing one raises ILLEGAL and changes
nothing else, with a tick open or not, in whatever interleaving. -/
def Obligations.IllegalWordsAreTheTable : Prop :=
  (∀ w : Word, (∃ why, decode w = .illegal why) ↔ Illegal113 w) ∧
  ∀ (s : State) (w : Word) (rest : List Move), EngineTurn rest s → s.fault = false → s.phase = .run →
    s.ucode[s.upc]? = some w → Illegal113 w → step s = .next (engineFault 1#4 (popped rest s))

/-! The engine step. -/

/-- A step runs the decoded instruction: with the engine running at a legal word, the step is `exec`,
whether no move is listed or the listed move is the engine's. -/
def Obligations.StepRunsDecodedInstruction : Prop :=
  ∀ (s : State) (w : Word) (i : Instr), s.fault = false → s.phase = .run →
    s.ucode[s.upc]? = some w → decode w = .ok i →
    (s.moves = [] → step s = exec i s) ∧
    (∀ rest, s.moves = .engine :: rest → step s = exec i (popped rest s))

/-- The sequencer around the instructions: it takes no step when idle or faulted, fetches the frame's
two little-endian words and starts at UPC 0, and faults UPC_RANGE past the ROM's end. That the step
of an engine that rests is the state itself is the model's choice (entry 3). -/
def Obligations.SequencerSteps : Prop :=
  ∀ (s : State) (rest : List Move), EngineTurn rest s →
    ((s.fault = true ∨ s.phase = .idle) → step s = .next (popped rest s)) ∧
    (s.fault = false → s.phase = .fetch → s.blkBase.toNat + 8 * s.fidx.toNat + 8 ≤ 2 ^ 32 →
      let a := s.blkBase.toNat + 8 * s.fidx.toNat
      step s = .next { s with
        moves := rest
        fl := readCell s.mem (a + 3) ++ readCell s.mem (a + 2) ++ readCell s.mem (a + 1) ++ readCell s.mem a
        fr := readCell s.mem (a + 7) ++ readCell s.mem (a + 6) ++ readCell s.mem (a + 5) ++ readCell s.mem (a + 4)
        upc := 0
        phase := .run }) ∧
    (s.fault = false → s.phase = .run → s.ucode.length ≤ s.upc →
      step s = .next (engineFault 14#4 (popped rest s)))

/-- The tick guard: outside a tick every instruction but NOP and START raises NO_TICK and does nothing
else, whatever other condition fails; an ILLEGAL word still reports ILLEGAL; NOP still runs. -/
def Obligations.TickGuard : Prop :=
  (∀ (i : Instr) (s : State), i ≠ .nop → i ≠ .start → s.tickOpen = false →
    exec i s = .next (engineFault 6#4 s)) ∧
  (∀ s : State, s.tickOpen = false → exec .nop s = .next { s with upc := s.upc + 1 }) ∧
  (∀ (s : State) (w : Word) (why : IllegalWord) (rest : List Move), EngineTurn rest s →
    s.fault = false → s.phase = .run → s.tickOpen = false → s.ucode[s.upc]? = some w →
    decode w = .illegal why → step s = .next (engineFault 1#4 (popped rest s)))

/-! Operands. -/

/-- The coefficient table of R110: what each `csel` from 0 to 7 gives, the latches read as they are,
`-kap` with its sign bit flipped and no other bit changed; and the `csel` an instruction has is the
field 23:21 of its word (R102). -/
def Obligations.CoefficientTable : Prop :=
  (∀ s : State,
    s.coef (Coef.ofCode 0) = 0x00000000#32 ∧ s.coef (Coef.ofCode 1) = 0x3F800000#32 ∧
    s.coef (Coef.ofCode 2) = 0x40000000#32 ∧ s.coef (Coef.ofCode 3) = s.latch.diffusion ∧
    ((s.coef (Coef.ofCode 4)).toNat = (if s.latch.diffusion.toNat < 2 ^ 31
      then s.latch.diffusion.toNat + 2 ^ 31 else s.latch.diffusion.toNat - 2 ^ 31)) ∧
    s.coef (Coef.ofCode 5) = s.latch.time ∧ s.coef (Coef.ofCode 6) = s.latch.inputGain ∧
    s.coef (Coef.ofCode 7) = s.latch.lp) ∧
  ∀ (w : Word) (i : Instr) (c : Coef), decode w = .ok i → coefOperand i = some c →
    c = Coef.ofCode (w.extractLsb' 21 3).toNat

/-- Offset evaluation (R210). -/
def Obligations.OffsetEvaluation : Prop :=
  ∀ (s : State) (line : LineId) (k base depth : Nat) (lfo : LfoId),
    s.offsetR line (.imm k) = F32.ofNat k ∧
    s.offsetR line (.scaled k) = F32.mul s.cfg.ftz (F32.ofNat k) s.latch.size ∧
    s.offsetR line .tail = F32.mul s.cfg.ftz (F32.ofNat (s.len[line] - 1)) s.latch.size ∧
    s.offsetM base depth lfo =
      F32.add s.cfg.ftz (F32.mul s.cfg.ftz (F32.ofNat base) s.latch.size)
        (F32.mul s.cfg.ftz (F32.ofNat depth) s.lfov[lfo])

/-! The instructions, one by one. -/

/-- NOP (R200): UPC advances and nothing else changes, in every state. -/
def Obligations.NopOnlyAdvances : Prop :=
  ∀ s : State, exec .nop s = .next { s with upc := s.upc + 1 }

/-- START (R201, R203): the two faults in order; otherwise a tick opens. -/
def Obligations.StartOpensATick : Prop :=
  ∀ s : State,
    (s.tickOpen = true → exec .start s = .next (engineFault 7#4 s)) ∧
    (s.tickOpen = false →
      (s.pv.amount = false ∨ s.pv.inputGain = false ∨ s.pv.time = false ∨ s.pv.diffusion = false ∨
        s.pv.lp = false ∨ s.pv.size = false) →
      exec .start s = .next (engineFault 5#4 s)) ∧
    (s.tickOpen = false → s.pv = ⟨true, true, true, true, true, true⟩ →
      ∃ t, exec .start s = .next t ∧
        t.latch = s.param ∧ t.acc = 0x00000000#32 ∧ t.prevTag = none ∧ t.tickOpen = true ∧
        t.upc = s.upc + 1 ∧ t.sv[0] = false ∧ t.sv[1] = false ∧ t.sv[2] = s.sv[2] ∧
        t.sv[3] = s.sv[3] ∧
        (∀ i : LineId, s.wp[i] < s.len[i] → (t.wp[i] : Int) = ((s.wp[i] : Int) - 1) % (s.len[i] : Int)) ∧
        (∀ k : LfoId, t.ph[k].toNat = (s.ph[k].toNat + s.inc[k].toNat) % 2 ^ 32 ∧
          t.lfov[k] = Wave.value s.cfg.wave t.ph[k]) ∧
        t = { s with latch := t.latch, acc := t.acc, prevTag := t.prevTag, tickOpen := t.tickOpen,
                     upc := t.upc, sv := t.sv, wp := t.wp, ph := t.ph, lfov := t.lfov })

/-- RDIN (R204). -/
def Obligations.RdinAddsScaledInput : Prop :=
  ∀ (src : InSrc) (coef : Coef) (s : State),
    (s.tickOpen = false → exec (.rdin src coef) s = .next (engineFault 6#4 s)) ∧
    (s.tickOpen = true →
      exec (.rdin src coef) s = .next { s with
        acc := F32.add s.cfg.ftz s.acc (F32.mul s.cfg.ftz
          (match src with
           | .left => s.fl
           | .right => s.fr
           | .both => F32.add s.cfg.ftz s.fl s.fr) (s.coef coef))
        upc := s.upc + 1 })

/-- RD (R215): the offset of R210 read by R213, accumulated and tagged by R214. -/
def Obligations.RdReadsTheLine : Prop :=
  ∀ (line : LineId) (off : Offset) (coef : Coef) (s : State),
    (s.tickOpen = false → exec (.rd line off coef) s = .next (engineFault 6#4 s)) ∧
    (s.tickOpen = true →
      ReadRule line (s.offsetR line off) (s.coef coef) s (exec (.rd line off coef) s))

/-- RDM (R216). -/
def Obligations.RdmReadsTheModulatedLine : Prop :=
  ∀ (line : LineId) (base depth : Nat) (lfo : LfoId) (coef : Coef) (s : State),
    (s.tickOpen = false → exec (.rdm line base depth lfo coef) s = .next (engineFault 6#4 s)) ∧
    (s.tickOpen = true →
      ReadRule line
        (F32.add s.cfg.ftz (F32.mul s.cfg.ftz (F32.ofNat base) s.latch.size)
          (F32.mul s.cfg.ftz (F32.ofNat depth) s.lfov[lfo]))
        (s.coef coef) s (exec (.rdm line base depth lfo coef) s))

/-- WRAP (R230): ACC is stored at offset 0, then `ACC <- ACC * g + PREV`. -/
def Obligations.WrapStoresAndFeedsBack : Prop :=
  ∀ (line : LineId) (coef : Coef) (s : State),
    (s.tickOpen = false → exec (.wrap line coef) s = .next (engineFault 6#4 s)) ∧
    (s.tickOpen = true → s.prevTag ≠ some line →
      exec (.wrap line coef) s = .next (engineFault 3#4 s)) ∧
    (s.tickOpen = true → s.prevTag = some line → UnitExists line 0 s →
      exec (.wrap line coef) s = .next (storeDone line 0
        (F32.add s.cfg.ftz (F32.mul s.cfg.ftz s.acc (s.coef coef)) s.prev) s))

/-- WR (R231, R232): ACC is stored at `floor(off)`, then scaled. -/
def Obligations.WrStoresThenScales : Prop :=
  ∀ (line : LineId) (off : Offset) (coef : Coef) (s : State),
    let o := s.offsetR line off
    (s.tickOpen = false → exec (.wr line off coef) s = .next (engineFault 6#4 s)) ∧
    (s.tickOpen = true → (¬ ValidOffset o ∨ s.len[line] ≤ F32.floorNat o) →
      exec (.wr line off coef) s = .next (engineFault 2#4 s)) ∧
    (s.tickOpen = true → ValidOffset o → F32.floorNat o < s.len[line] →
      UnitExists line (F32.floorNat o) s →
      exec (.wr line off coef) s = .next (storeDone line (F32.floorNat o)
        (F32.mul s.cfg.ftz s.acc (s.coef coef)) s))

/-- WROUT (R240): ACC is stored whole, then scaled. -/
def Obligations.WroutStoresThenScales : Prop :=
  ∀ (r : ScalarReg) (coef : Coef) (s : State),
    (s.tickOpen = false → exec (.wrout r coef) s = .next (engineFault 6#4 s)) ∧
    (s.tickOpen = true →
      exec (.wrout r coef) s = .next { s with
        sreg := s.sreg.set r s.acc
        sv := s.sv.set r true
        acc := F32.mul s.cfg.ftz s.acc (s.coef coef)
        upc := s.upc + 1 })

/-- LD (R241): the bits are copied. -/
def Obligations.LdLoadsTheScalar : Prop :=
  ∀ (r : ScalarReg) (s : State),
    (s.tickOpen = false → exec (.ld r) s = .next (engineFault 6#4 s)) ∧
    (s.tickOpen = true → s.sv[r] = false → exec (.ld r) s = .next (engineFault 4#4 s)) ∧
    (s.tickOpen = true → s.sv[r] = true →
      exec (.ld r) s = .next { s with acc := s.sreg[r], upc := s.upc + 1 })

/-- LP (R242): four roundings in this order. -/
def Obligations.LpFiltersTheAccumulator : Prop :=
  ∀ (r : ScalarReg) (coef : Coef) (s : State),
    let ftz := s.cfg.ftz
    let s2 := F32.add ftz s.sreg[r] (F32.mul ftz (F32.sub ftz s.acc s.sreg[r])
      (F32.sub ftz 0x3F800000#32 (s.coef coef)))
    (s.tickOpen = false → exec (.lp r coef) s = .next (engineFault 6#4 s)) ∧
    (s.tickOpen = true → s.sv[r] = false → exec (.lp r coef) s = .next (engineFault 4#4 s)) ∧
    (s.tickOpen = true → s.sv[r] = true →
      ∃ t, exec (.lp r coef) s = .next t ∧
        t = { s with sreg := s.sreg.set r s2, acc := s2, upc := s.upc + 1 })

/-- XFADE (R270): three roundings; the mix ratio is the latch. -/
def Obligations.XfadeMixesTheChannel : Prop :=
  ∀ (ch : Channel) (r : ScalarReg) (s : State),
    let ftz := s.cfg.ftz
    let fade := fun f => F32.add ftz f (F32.mul ftz (F32.sub ftz s.sreg[r] f) s.latch.amount)
    (s.tickOpen = false → exec (.xfade ch r) s = .next (engineFault 6#4 s)) ∧
    (s.tickOpen = true → s.sv[r] = false → exec (.xfade ch r) s = .next (engineFault 4#4 s)) ∧
    (s.tickOpen = true → s.sv[r] = true →
      exec (.xfade .left r) s = .next { s with fl := fade s.fl, upc := s.upc + 1 } ∧
      exec (.xfade .right r) s = .next { s with fr := fade s.fr, upc := s.upc + 1 })

/-- EOF (R271): the eight bytes of the frame, little-endian, and no other byte; the counters, the tick
and the phase; UPC stays. -/
def Obligations.EofWritesTheFrameBack : Prop :=
  ∀ s : State, Memory.wf s.mem = true →
    let a := s.blkBase.toNat + 8 * s.fidx.toNat
    (s.tickOpen = false → exec .eof s = .next (engineFault 6#4 s)) ∧
    (s.tickOpen = true → a + 8 ≤ 2 ^ 32 →
      ∃ t, exec .eof s = .next t ∧
        (∀ j, j < 4 → readCell t.mem (a + j) = s.fl.extractLsb' (8 * j) 8 ∧
          readCell t.mem (a + 4 + j) = s.fr.extractLsb' (8 * j) 8) ∧
        (∀ b, (b < a ∨ a + 8 ≤ b) → readCell t.mem b = readCell s.mem b) ∧
        t.fidx = s.fidx + 1#32 ∧ t.framesDone = s.framesDone + 1#32 ∧ t.tickOpen = false ∧
        (s.fidx + 1#32 < s.blkCount → t.phase = .fetch) ∧
        (¬ s.fidx + 1#32 < s.blkCount → t.phase = .idle) ∧
        t = { s with mem := t.mem, fidx := t.fidx, framesDone := t.framesDone, tickOpen := false,
                     phase := t.phase })

/-! Frames. -/

/-- What the nine register-only instructions leave unchanged: every register but those their rules
name, all of frame memory and all of the arena. -/
def Obligations.RegisterInstructionsFrame : Prop :=
  ∀ (i : Instr) (s t : State), RegisterOnly i → exec i s = .next t →
    t = registerFrame i t s ∧
    (∀ a, readCell t.mem a = readCell s.mem a) ∧ (∀ a, readCell t.arena a = readCell s.arena a)

/-- What WRAP and WR leave unchanged: every register but ACC, PREVTAG and UPC, all of frame memory,
and every arena unit but the one stored to. -/
def Obligations.StoringInstructionsFrame : Prop :=
  ∀ (line : LineId) (off : Offset) (coef : Coef) (s t : State), Arena.wf s.arena = true →
    (exec (.wrap line coef) s = .next t →
      t = { withRecord t s with acc := t.acc, prevTag := t.prevTag, upc := t.upc, arena := t.arena } ∧
      (∀ b, readCell t.mem b = readCell s.mem b) ∧
      ∀ b, b ≠ s.cell line 0 → readCell t.arena b = readCell s.arena b) ∧
    (exec (.wr line off coef) s = .next t →
      t = { withRecord t s with acc := t.acc, prevTag := t.prevTag, upc := t.upc, arena := t.arena } ∧
      (∀ b, readCell t.mem b = readCell s.mem b) ∧
      (s.writeOffset line (s.offsetR line off) = none → ∀ b, readCell t.arena b = readCell s.arena b) ∧
      ∀ k, s.writeOffset line (s.offsetR line off) = some k →
        ∀ b, b ≠ s.cell line k → readCell t.arena b = readCell s.arena b)

/-- No step writes the microprogram ROM, the implementation parameters or the line lengths (R34,
R95). -/
def Obligations.RomIsNeverWritten : Prop :=
  ∀ s t : State, step s = .next t → t.ucode = s.ucode ∧ t.cfg = s.cfg ∧ t.len = s.len

/-- A tick in progress does not see the parameter and frame registers: whatever the host has put in
them, every instruction but START does the same (R24, R43, R44, R93). -/
def Obligations.HostWritesWaitForTheNextStart : Prop :=
  ∀ (i : Instr) (s : State) (p : ParamFile F32) (v : ParamFile Bool) (b c : Word), i ≠ .start →
    exec i (withHostRegisters p v b c s) = answerWithHostRegisters p v b c (exec i s)

/-- Where the model itself stops (entry 12, the model's choice): an access of RD, RDM, WRAP or WR to an
arena unit, or of the frame fetch or EOF to frame bytes, that do not exist. No state of a run meets it
(`NoStepLeavesTheStorage`). -/
def Obligations.MissingStorageStopsTheModel : Prop :=
  (∀ (line : LineId) (off : Offset) (base depth : Nat) (lfo : LfoId) (coef : Coef) (s : State),
    s.tickOpen = true →
    MissingUnitRule line (s.offsetR line off) s (exec (.rd line off coef) s) ∧
    MissingUnitRule line (s.offsetM base depth lfo) s (exec (.rdm line base depth lfo coef) s) ∧
    (s.prevTag = some line → ¬ UnitExists line 0 s →
      exec (.wrap line coef) s = .fault (.arenaIndex (s.cell line 0))) ∧
    (let k := F32.floorNat (s.offsetR line off)
     ValidOffset (s.offsetR line off) → k < s.len[line] → ¬ UnitExists line k s →
      exec (.wr line off coef) s = .fault (.arenaIndex (s.cell line k))) ∧
    (2 ^ 32 < s.blkBase.toNat + 8 * s.fidx.toNat + 8 →
      exec .eof s = .fault (.frameAddress (s.blkBase.toNat + 8 * s.fidx.toNat)))) ∧
  (∀ (s : State) (rest : List Move), EngineTurn rest s → s.fault = false → s.phase = .fetch →
    2 ^ 32 < s.blkBase.toNat + 8 * s.fidx.toNat + 8 →
    step s = .fault (.frameAddress (s.blkBase.toNat + 8 * s.fidx.toNat)))

/-! Faults. -/

/-- Faults are precise (R410 to R412): a step that raises one writes the record, halts the engine and
changes nothing else. -/
def Obligations.FaultsArePrecise : Prop :=
  ∀ s t : State, s.fault = false → step s = .next t → t.fault = true →
    (∃ code, code ≠ 0#4 ∧
      (t = engineFault code (popped s.moves.tail s) ∨ t = hostFault code (popped s.moves.tail s)))

/-- A fault is sticky (R413, R414): while `FAULT = 1` the engine takes no step, a CTRL write does
nothing, and no move but Reset changes the record. That the engine's turn is then a next state equal to
the state is the model's choice (entry 3). -/
def Obligations.FaultsAreSticky : Prop :=
  ∀ s : State, s.fault = true →
    (s.moves = [] → step s = .next s) ∧
    (∀ rest, s.moves = .engine :: rest → step s = .next (popped rest s)) ∧
    (∀ rest v, s.moves = .hostWrite 0 v :: rest → step s = .next (popped rest s)) ∧
    (∀ t, step s = .next t → (∀ d, s.moves.head? ≠ some (.reset d)) →
      t.fault = true ∧ t.fcause = s.fcause ∧ t.fsrc = s.fsrc ∧ t.fupc = s.fupc ∧ t.fframe = s.fframe)

/-! Host commands and registers. -/

/-- CTRL decode (R301, R403): ignored while faulted; 0 does nothing; anything but 0, 1, 2 is
CMD_INVALID, busy or not; INIT or PROCESS while BUSY is BUSY and halts the block. -/
def Obligations.CtrlWriteDecode : Prop :=
  ∀ (s : State) (v : Word) (rest : List Move), s.moves = .hostWrite 0 v :: rest →
    (s.fault = true → step s = .next (popped rest s)) ∧
    (v = 0#32 → step s = .next (popped rest s)) ∧
    (s.fault = false → v ≠ 0#32 → v ≠ 1#32 → v ≠ 2#32 →
      step s = .next (hostFault 15#4 (popped rest s))) ∧
    (s.fault = false → (v = 1#32 ∨ v = 2#32) → s.phase ≠ .idle →
      step s = .next (hostFault 10#4 (popped rest s)))

/-- INIT (R250 to R254): the faults in order; otherwise the lines are partitioned, the LFOs loaded,
the filter states cleared, three parameters set, and nothing else changes. -/
def Obligations.InitPartitionsTheArena : Prop :=
  ∀ (s : State) (rest : List Move), s.moves = .hostWrite 0 1#32 :: rest → s.fault = false →
    (s.phase ≠ .idle → step s = .next (hostFault 10#4 (popped rest s))) ∧
    (s.phase = .idle → s.inited = true → step s = .next (hostFault 9#4 (popped rest s))) ∧
    (s.phase = .idle → s.inited = false → 16384 < Finset.univ.sum (fun j : LineId => s.len[j]) →
      step s = .next (hostFault 13#4 (popped rest s))) ∧
    (s.phase = .idle → s.inited = false → Finset.univ.sum (fun j : LineId => s.len[j]) ≤ 16384 →
      ∃ t, step s = .next t ∧ t.inited = true ∧
        (∀ i : LineId, t.base[i] = lengthSumBefore s i ∧ t.wp[i] = 0) ∧
        (∀ k : LfoId, t.ph[k] = 0#32) ∧ t.inc[0] = s.cfg.lfo1Inc ∧ t.inc[1] = s.cfg.lfo2Inc ∧
        t.sreg = (s.sreg.set 2 0x00000000#32).set 3 0x00000000#32 ∧
        t.sv = (s.sv.set 2 true).set 3 true ∧
        t.param = ⟨s.param.amount, s.param.inputGain, s.param.time, 0x3F200000#32, 0x3F333333#32, 0x3F800000#32⟩ ∧
        t.pv = ⟨s.pv.amount, s.pv.inputGain, s.pv.time, true, true, true⟩ ∧
        t = { s with moves := rest, inited := t.inited, base := t.base, wp := t.wp, ph := t.ph,
                     inc := t.inc, sreg := t.sreg, sv := t.sv, param := t.param, pv := t.pv })

/-- PROCESS (R300): BUSY, NOT_INIT, FRAME_ALIGN, FRAME_RANGE in order; otherwise the block is latched and
the engine starts. An empty block completes at once whatever the frame window; a block that overlaps
the register window is FRAME_RANGE. -/
def Obligations.ProcessStartsTheBlock : Prop :=
  ∀ (s : State) (rest : List Move), s.moves = .hostWrite 0 2#32 :: rest → s.fault = false →
    let fits := s.frameBase.toNat + 8 * s.frameCount.toNat ≤ 2 ^ 32 ∧
      Params.frameWindowHolds s.cfg s.frameBase.toNat (8 * s.frameCount.toNat) = true
    (s.phase ≠ .idle → step s = .next (hostFault 10#4 (popped rest s))) ∧
    (s.phase = .idle → s.inited = false → step s = .next (hostFault 8#4 (popped rest s))) ∧
    (s.phase = .idle → s.inited = true → s.frameBase.toNat % 4 ≠ 0 →
      step s = .next (hostFault 11#4 (popped rest s))) ∧
    (s.phase = .idle → s.inited = true → s.frameBase.toNat % 4 = 0 → s.frameCount = 0#32 →
      step s = .next { s with
        moves := rest, blkBase := s.frameBase, blkCount := s.frameCount, fidx := 0#32,
        framesDone := 0#32, phase := .idle }) ∧
    (s.phase = .idle → s.inited = true → s.frameBase.toNat % 4 = 0 → s.frameCount ≠ 0#32 →
      (¬ fits → step s = .next (hostFault 12#4 (popped rest s))) ∧
      (OverlapsRegisterWindow s.cfg s.frameBase.toNat (8 * s.frameCount.toNat) →
        step s = .next (hostFault 12#4 (popped rest s))) ∧
      (fits → step s = .next { s with
        moves := rest, blkBase := s.frameBase, blkCount := s.frameCount, fidx := 0#32,
        framesDone := 0#32, phase := .fetch }))

/-- FRAME_WINDOW (R82, R300, decision D40): it holds of every empty range and of none that overlaps the
register window; beyond that the platform decides, in the forms of entry 11 (the model's choice), the
reference being every range. -/
def Obligations.FrameWindowLaws : Prop :=
  ∀ (p : Params) (base n : Nat),
    Params.frameWindowHolds p base 0 = true ∧
    (0 < n → OverlapsRegisterWindow p base n → Params.frameWindowHolds p base n = false) ∧
    (¬ OverlapsRegisterWindow p base n →
      (p.frameWindow = .all → Params.frameWindowHolds p base n = true) ∧
      (∀ allowed, p.frameWindow = .ranges allowed → 0 < n →
        (Params.frameWindowHolds p base n = true ↔ ∃ r ∈ allowed, r.1 ≤ base ∧ base + n ≤ r.2)) ∧
      (∀ k, p.frameWindow = .platform k → 0 < n →
        Params.frameWindowHolds p base n = Config.platformWindow k base n))

/-- The setters and the frame registers (R302, R303): accepted in every state, no validation, no other
effect. -/
def Obligations.SettersWriteOneRegister : Prop :=
  ∀ (s : State) (v : Word) (rest : List Move),
    (s.moves = .hostWrite 0x08 v :: rest → step s = .next { s with moves := rest, frameBase := v }) ∧
    (s.moves = .hostWrite 0x0C v :: rest → step s = .next { s with moves := rest, frameCount := v }) ∧
    (s.moves = .hostWrite 0x10 v :: rest → step s = .next { s with
      moves := rest, param := { s.param with amount := v }, pv := { s.pv with amount := true } }) ∧
    (s.moves = .hostWrite 0x14 v :: rest → step s = .next { s with
      moves := rest, param := { s.param with inputGain := v }, pv := { s.pv with inputGain := true } }) ∧
    (s.moves = .hostWrite 0x18 v :: rest → step s = .next { s with
      moves := rest, param := { s.param with time := v }, pv := { s.pv with time := true } }) ∧
    (s.moves = .hostWrite 0x1C v :: rest → step s = .next { s with
      moves := rest, param := { s.param with diffusion := v }, pv := { s.pv with diffusion := true } }) ∧
    (s.moves = .hostWrite 0x20 v :: rest → step s = .next { s with
      moves := rest, param := { s.param with lp := v }, pv := { s.pv with lp := true } }) ∧
    (s.moves = .hostWrite 0x24 v :: rest → step s = .next { s with
      moves := rest, param := { s.param with size := v }, pv := { s.pv with size := true } })

/-- The register window (R310, R40, R55): what each aligned read returns, without side effect; the
read-only and reserved offsets ignore writes. -/
def Obligations.RegisterWindowAccess : Prop :=
  ∀ (s : State) (o : Nat) (rest : List Move), o % 4 = 0 → o ≤ 0xFC →
    (s.moves = .hostRead o :: rest →
      ∃ v, step s = .next { s with moves := rest, hostData := v } ∧
        (o = 0x04 → v = s.statusWord) ∧ (o = 0x08 → v = s.frameBase) ∧ (o = 0x0C → v = s.frameCount) ∧
        (o = 0x28 → v = s.faultUpcWord) ∧ (o = 0x2C → v = s.fframe) ∧ (o = 0x30 → v = s.framesDone) ∧
        (o = 0x34 → v = s.inc[0]) ∧ (o = 0x38 → v = s.inc[1]) ∧
        ((o = 0x00 ∨ (0x10 ≤ o ∧ o ≤ 0x24) ∨ 0x3C ≤ o) → v = 0#32)) ∧
    (∀ v, s.moves = .hostWrite o v :: rest → (o = 0x04 ∨ 0x28 ≤ o) →
      step s = .next (popped rest s))

/-- Frame memory as the host reaches it outside the running block's frames (R80, R502): a read returns
the byte, a write changes that byte and no other, and nothing else changes. The byte-wide access is
the model's choice (entry 14). -/
def Obligations.HostFrameAccess : Prop :=
  ∀ (s : State) (a : Nat) (rest : List Move), Memory.wf s.mem = true → a < 2 ^ 32 →
    (a < s.cfg.regBase ∨ s.cfg.regBase + 256 ≤ a) →
    (s.phase = .idle ∨ a < s.blkBase.toNat ∨ s.blkBase.toNat + 8 * s.blkCount.toNat ≤ a) →
    (s.moves = .frameRead a :: rest →
      step s = .next { s with moves := rest, hostData := (readCell s.mem a).setWidth 32 }) ∧
    (∀ v, s.moves = .frameWrite a v :: rest →
      ∃ t, step s = .next t ∧ t = { s with moves := rest, mem := t.mem } ∧
        readCell t.mem a = v ∧ ∀ b, b ≠ a → readCell t.mem b = readCell s.mem b)

/-- The bits of STATUS and FAULT_UPC (R42, R51). -/
def Obligations.StatusRegisterBits : Prop :=
  ∀ s : State,
    let w := s.statusWord
    w.getLsbD 0 = s.inited ∧ (w.getLsbD 1 = true ↔ s.phase ≠ .idle) ∧ w.getLsbD 2 = s.fault ∧
    w.getLsbD 3 = false ∧ w.extractLsb' 4 4 = s.fcause ∧ w.getLsbD 8 = s.pv.amount ∧
    w.getLsbD 9 = s.pv.inputGain ∧ w.getLsbD 10 = s.pv.time ∧ w.getLsbD 11 = s.pv.diffusion ∧
    w.getLsbD 12 = s.pv.lp ∧ w.getLsbD 13 = s.pv.size ∧ w.extractLsb' 14 18 = 0#18 ∧
    s.faultUpcWord.extractLsb' 0 9 = s.fupc ∧ s.faultUpcWord.extractLsb' 9 7 = 0#7 ∧
    s.faultUpcWord.getLsbD 16 = s.fsrc ∧ s.faultUpcWord.extractLsb' 17 15 = 0#15

/-- Where a host move is refused by name (R310, R92; U19, U20): an access that is no aligned 32-bit
access inside the window, a byte access to the window, a byte of the running block's frames, a byte
outside the 32-bit space.
The model's choice of a refusal is entry 14. -/
def Obligations.ForbiddenHostMovesAreRefused : Prop :=
  ∀ (s : State) (rest : List Move),
    (∀ o, (o % 4 ≠ 0 ∨ 0xFC < o) →
      (s.moves = .hostRead o :: rest → step s = .refused (.hostAccess o)) ∧
      (∀ v, s.moves = .hostWrite o v :: rest → step s = .refused (.hostAccess o))) ∧
    (∀ a, s.phase ≠ .idle → s.blkBase.toNat ≤ a → a < s.blkBase.toNat + 8 * s.blkCount.toNat →
      a < 2 ^ 32 → (a < s.cfg.regBase ∨ s.cfg.regBase + 256 ≤ a) →
      (s.moves = .frameRead a :: rest → step s = .refused (.frameOwned a)) ∧
      (∀ v, s.moves = .frameWrite a v :: rest → step s = .refused (.frameOwned a))) ∧
    (∀ a, s.cfg.regBase ≤ a → a < s.cfg.regBase + 256 → a < 2 ^ 32 →
      (s.moves = .frameRead a :: rest → step s = .refused (.hostAccess (a - s.cfg.regBase))) ∧
      (∀ v, s.moves = .frameWrite a v :: rest →
        step s = .refused (.hostAccess (a - s.cfg.regBase)))) ∧
    (∀ a, 2 ^ 32 ≤ a →
      (s.moves = .frameRead a :: rest → step s = .refused (.hostAddress a)) ∧
      (∀ v, s.moves = .frameWrite a v :: rest → step s = .refused (.hostAddress a)))

/-! Reset. -/

/-- What reset leaves, where the spec gives a value (R60). -/
def Obligations.ResetStateValues : Prop :=
  let s := State.reset
  s.inited = false ∧ s.phase = .idle ∧ s.fault = false ∧ s.fcause = 0#4 ∧ s.fupc = 0#9 ∧
  s.fsrc = false ∧ s.fframe = 0#32 ∧ s.frameBase = 0#32 ∧ s.frameCount = 0#32 ∧
  s.pv = ⟨false, false, false, false, false, false⟩ ∧ s.framesDone = 0#32 ∧ s.upc = 0 ∧
  s.tickOpen = false ∧ s.prevTag = none ∧ (∀ r : ScalarReg, s.sv[r] = false) ∧
  (∀ k : LfoId, s.inc[k] = 0#32) ∧
  s.len = #v[113, 162, 241, 399, 1653, 2038, 3411, 1913, 1663, 4782]

/-- The Reset event (R500, R501): the values R60 gives, in whatever state it comes. Every element R60
leaves unspecified takes the value the move brings, the arena any canonical one (the model's choice,
entry 5). Frame memory stays (R500); that the ROM, LEN, the parameters of R6, `moves` and `hostData`
stay is the model's reading and choice (entry 22). -/
def Obligations.ResetEvent : Prop :=
  ∀ (s : State) (d : Draw) (rest : List Move), s.moves = .reset d :: rest →
    (∃ t, step s = .next t ∧
      t.inited = false ∧ t.phase = .idle ∧ t.fault = false ∧ t.fcause = 0#4 ∧ t.fupc = 0#9 ∧
      t.fsrc = false ∧ t.fframe = 0#32 ∧ t.frameBase = 0#32 ∧ t.frameCount = 0#32 ∧
      t.pv = ⟨false, false, false, false, false, false⟩ ∧ t.framesDone = 0#32 ∧ t.upc = 0 ∧
      t.tickOpen = false ∧ t.prevTag = none ∧ (∀ r : ScalarReg, t.sv[r] = false) ∧
      (∀ k : LfoId, t.inc[k] = 0#32) ∧
      (∀ a, readCell t.mem a = readCell s.mem a) ∧ t.ucode = s.ucode ∧ t.len = s.len ∧
      t.cfg = s.cfg ∧ t.moves = rest ∧ t.hostData = s.hostData ∧
      t.param = d.param ∧ t.latch = d.latch ∧ t.blkBase = d.blkBase ∧ t.blkCount = d.blkCount ∧
      t.fidx = d.fidx ∧ t.acc = d.acc ∧ t.prev = d.prev ∧ t.lfov = d.lfov ∧ t.sreg = d.sreg ∧
      t.fl = d.fl ∧ t.fr = d.fr ∧ t.base = d.base ∧ t.wp = d.wp ∧ t.ph = d.ph ∧
      (Arena.wf d.arena = true → (∀ c ∈ d.arena, unitOf s.cfg.storeFmt c.2 = c.2) →
        t.arena = d.arena))

/-! Arithmetic. -/

/-- `add`, `sub` and `mul` without FTZ are the exact result rounded once, to nearest, ties to even,
for finite operands (R10). -/
def Obligations.ArithmeticRoundsToNearestEven : Prop :=
  ∀ a b : F32, F32.isFinite a = true → F32.isFinite b = true →
    Rounded (units a + units b) 1 (F32.add false a b) ∧
    Rounded (units a - units b) 1 (F32.sub false a b) ∧
    Rounded (units a * units b) (2 ^ 149) (F32.mul false a b)

/-- NaN and infinity (R10, decision D7): any NaN result is the canonical one, and these are the cases
that give it. -/
def Obligations.NaNResultsAreCanonical : Prop :=
  ∀ (ftz : Bool) (a b : F32),
    ((F32.isNaN a = true ∨ F32.isNaN b = true ∨
        (F32.isInf a = true ∧ F32.isInf b = true ∧ F32.isNeg a ≠ F32.isNeg b)) ↔
      F32.isNaN (F32.add ftz a b) = true) ∧
    (F32.isNaN (F32.add ftz a b) = true → F32.add ftz a b = 0x7FC00000#32) ∧
    ((F32.isNaN a = true ∨ F32.isNaN b = true ∨
        (F32.isInf a = true ∧ F32.isInf b = true ∧ F32.isNeg a = F32.isNeg b)) ↔
      F32.isNaN (F32.sub ftz a b) = true) ∧
    (F32.isNaN (F32.sub ftz a b) = true → F32.sub ftz a b = 0x7FC00000#32) ∧
    ((F32.isNaN a = true ∨ F32.isNaN b = true ∨
        (F32.isInf a = true ∧ F32.isZero (F32.flush ftz b) = true) ∨
        (F32.isZero (F32.flush ftz a) = true ∧ F32.isInf b = true)) ↔
      F32.isNaN (F32.mul ftz a b) = true) ∧
    (F32.isNaN (F32.mul ftz a b) = true → F32.mul ftz a b = 0x7FC00000#32)

/-- What `ArithmeticRoundsToNearestEven` leaves open: the results with an infinite operand, and the sign
of a zero result, from an exact zero or from underflow, with FTZ on or off. The cases are IEEE 754's
(entry 15). -/
def Obligations.InfiniteAndZeroResults : Prop :=
  ∀ (ftz : Bool) (a b : F32), F32.isNaN a = false → F32.isNaN b = false →
    (F32.isInf a = true → (F32.isInf b = true → F32.isNeg a = F32.isNeg b) → F32.add ftz a b = a) ∧
    (F32.isInf b = true → (F32.isInf a = true → F32.isNeg a = F32.isNeg b) → F32.add ftz a b = b) ∧
    (F32.isInf a = true → (F32.isInf b = true → F32.isNeg a ≠ F32.isNeg b) → F32.sub ftz a b = a) ∧
    (F32.isInf b = true → (F32.isInf a = true → F32.isNeg a ≠ F32.isNeg b) →
      F32.sub ftz a b = F32.neg b) ∧
    ((F32.isInf a = true ∨ F32.isInf b = true) → F32.isZero (F32.flush ftz a) = false →
      F32.isZero (F32.flush ftz b) = false → F32.mul ftz a b = F32.inf (F32.isNeg a != F32.isNeg b)) ∧
    (F32.isFinite a = true → F32.isFinite b = true →
      let x := units (F32.flush ftz a)
      let y := units (F32.flush ftz b)
      (x + y = 0 → F32.add ftz a b = F32.zero (F32.isNeg a && F32.isNeg b)) ∧
      (x + y ≠ 0 → F32.isZero (F32.add ftz a b) = true →
        F32.add ftz a b = F32.zero (decide (x + y < 0))) ∧
      (x - y = 0 → F32.sub ftz a b = F32.zero (F32.isNeg a && !F32.isNeg b)) ∧
      (x - y ≠ 0 → F32.isZero (F32.sub ftz a b) = true →
        F32.sub ftz a b = F32.zero (decide (x - y < 0))) ∧
      ((x * y = 0 ∨ F32.isZero (F32.mul ftz a b) = true) →
        F32.mul ftz a b = F32.zero (F32.isNeg a != F32.isNeg b)))

/-- The exactness facts of R16, for operands that are no NaN. -/
def Obligations.ExactnessFacts : Prop :=
  (∀ n : Nat, n < 2 ^ 13 → F32.isFinite (F32.ofNat n) = true ∧ units (F32.ofNat n) = n * 2 ^ 149) ∧
  (∀ a : F32, F32.isFinite a = true → units (F32.neg a) = - units a) ∧
  (∀ (ftz : Bool) (x : F32), F32.isNaN x = false → (ftz = true → F32.isSubnormal x = false) →
    F32.mul ftz x 0x3F800000#32 = x ∧
    (x ≠ 0x80000000#32 → F32.add ftz x 0x00000000#32 = x ∧ F32.add ftz 0x00000000#32 x = x)) ∧
  (∀ (ftz : Bool) (x : F32), F32.isFinite x = true →
    F32.mul ftz x 0x00000000#32 = F32.zero (F32.isNeg x)) ∧
  (∀ (ftz : Bool) (x : F32), F32.isInf x = true →
    F32.isNaN (F32.mul ftz x 0x00000000#32) = true) ∧
  (∀ ftz : Bool, F32.add ftz 0x80000000#32 0x00000000#32 = 0x00000000#32 ∧
    F32.add ftz 0x00000000#32 0x80000000#32 = 0x00000000#32)

/-- With FTZ on, no operation takes a subnormal operand for other than a zero of its sign, and none
gives a subnormal result: a result that would be one is a zero of its sign (R15). -/
def Obligations.FlushToZero : Prop :=
  ∀ a b : F32,
    F32.add true a b = F32.add true (F32.flush true a) (F32.flush true b) ∧
    F32.sub true a b = F32.sub true (F32.flush true a) (F32.flush true b) ∧
    F32.mul true a b = F32.mul true (F32.flush true a) (F32.flush true b) ∧
    F32.isSubnormal (F32.flush true a) = false ∧
    (F32.isSubnormal a = true → F32.flush true a = F32.zero (F32.isNeg a)) ∧
    (F32.isSubnormal a = false → F32.flush true a = a) ∧
    F32.isSubnormal (F32.add true a b) = false ∧ F32.isSubnormal (F32.sub true a b) = false ∧
    F32.isSubnormal (F32.mul true a b) = false ∧
    (F32.isSubnormal a = false → F32.isSubnormal b = false →
      F32.add true a b = F32.flush true (F32.add false a b) ∧
      F32.sub true a b = F32.flush true (F32.sub false a b) ∧
      F32.mul true a b = F32.flush true (F32.mul false a b))

/-! Storage formats. -/

/-- Under F32 a round trip through storage is the identity, NaN payloads included (R75). -/
def Obligations.F32StorageIsTheIdentity : Prop :=
  ∀ (ftz : Bool) (v u : Word),
    encode32 .f32 ftz v = v ∧ decode32 .f32 u = u ∧ decode32 .f32 (encode32 .f32 ftz v) = v

/-- Q15S (R76): truncation toward zero, saturation, NaN to 0; decoding is exact. -/
def Obligations.Q15StorageTruncatesAndSaturates : Prop :=
  (∀ (ftz : Bool) (v : F32),
    (F32.isNaN v = true → encode32 .q15s ftz v = 0#32) ∧
    (F32.isInf v = true → encode32 .q15s ftz v = if F32.isNeg v then 0x8000#32 else 0x7FFF#32) ∧
    (F32.isFinite v = true → ((encode32 .q15s ftz v).toNat : Int) =
      (max (-32768) (min 32767 ((units v).tdiv (2 ^ 134)))) % 2 ^ 16)) ∧
  (∀ u : Word, F32.isFinite (decode32 .q15s u) = true ∧
    units (decode32 .q15s u) = (u.extractLsb' 0 16).toInt * 2 ^ 134)

/-! Lines. -/

/-- Ageing (R73): what is at offset `k` is at offset `k + m` after `m` STARTs, as long as that is
inside the line, and after `LEN` of them the unit at offset 0 is at offset 0 again. -/
def Obligations.SamplesAgeByOnePerStart : Prop :=
  ∀ (m : Nat) (s t : State) (i : LineId), s.wp[i] < s.len[i] → TicksLater m s t →
    (∀ k, k + m < s.len[i] → t.cell i (k + m) = s.cell i k) ∧
    (m = s.len[i] → t.cell i 0 = s.cell i 0)

/-- The lines are disjoint (R74): cells of two lines differ, two offsets of a line are two cells, and
none lies beyond unit 16374. -/
def Obligations.LinesNeverOverlap : Prop :=
  ∀ s : State, s.linesPlaced → ∀ (i j : LineId) (k l : Nat), k < s.len[i] → l < s.len[j] →
    s.base[i] + s.len[i] ≤ 16375 ∧ s.base[i] ≤ s.cell i k ∧ s.cell i k < s.base[i] + s.len[i] ∧
    (i ≠ j → s.cell i k ≠ s.cell j l) ∧ (i = j → s.cell i k = s.cell j l → k = l)

/-- A store reaches one unit (R72, R74, R512): after a completed WR or WRAP the sample at the offset
written is what was stored, and every other sample of every line is as before. -/
def Obligations.StoreReachesOneSample : Prop :=
  ∀ (line : LineId) (off : Offset) (coef : Coef) (s t : State),
    s.linesPlaced → Arena.wf s.arena = true → t.upc = s.upc + 1 →
    (exec (.wrap line coef) s = .next t →
      sample line 0 t = decode32 s.cfg.storeFmt (encode32 s.cfg.storeFmt s.cfg.ftz s.acc) ∧
      ∀ (j : LineId) (l : Nat), l < s.len[j] → (j ≠ line ∨ l ≠ 0) → sample j l t = sample j l s) ∧
    (exec (.wr line off coef) s = .next t →
      let k := F32.floorNat (s.offsetR line off)
      sample line k t = decode32 s.cfg.storeFmt (encode32 s.cfg.storeFmt s.cfg.ftz s.acc) ∧
      ∀ (j : LineId) (l : Nat), l < s.len[j] → (j ≠ line ∨ l ≠ k) → sample j l t = sample j l s)

/-- The all-pass pair (R233): a completed RD with gain `h`, then WRAP with gain `g` on the same line,
stores `w = x + h*d` at offset 0 and leaves `g*w + d`, each product and sum rounded. -/
def Obligations.AllPassPair : Prop :=
  ∀ (line : LineId) (off : Offset) (h g : Coef) (s t : State), Arena.wf s.arena = true →
    UnitExists line 0 s → exec (.rd line off h) s = .next t → t.upc = s.upc + 1 →
    let ftz := s.cfg.ftz
    let d := t.prev
    let w := F32.add ftz s.acc (F32.mul ftz d (s.coef h))
    ∃ u, exec (.wrap line g) t = .next u ∧
      readCell u.arena (s.cell line 0) = encode32 s.cfg.storeFmt ftz w ∧
      u.acc = F32.add ftz (F32.mul ftz w (s.coef g)) d ∧ u.prevTag = none

/-! Offsets inside the lines. -/

/-- `RD line, #K` (R215): the offset is an integer, so exactly one unit is read, whatever the size
latch; it faults exactly when `K > LEN - 1`. -/
def Obligations.ImmediateReadTakesOneUnit : Prop :=
  ∀ (line : LineId) (k : Nat) (coef : Coef) (s : State), s.tickOpen = true → s.linesPlaced →
    k < 8192 →
    (k < s.len[line] →
      exec (.rd line (.imm k) coef) s = .next (readDone line (sample line k s) (s.coef coef) s)) ∧
    (s.len[line] ≤ k → exec (.rd line (.imm k) coef) s = .next (engineFault 2#4 s))

/-- The size-scaling bound (R290, R215, R231) for any operands: with the size in `[-0.0, 1.0]` an RD
or WR at `TAIL*sz`, or at `#K` or `#K*sz` with `K` inside the line, never leaves its line. -/
def Obligations.ScaledAccessesStayInTheLine : Prop :=
  ∀ (line : LineId) (off : Offset) (coef : Coef) (s : State), s.tickOpen = true → s.linesPlaced →
    SizeInUnit s.latch.size →
    (∀ k, (off = .imm k ∨ off = .scaled k) → k < s.len[line]) →
    (∃ v, exec (.rd line off coef) s = .next (readDone line v (s.coef coef) s)) ∧
    (∃ k, k < s.len[line] ∧ exec (.wr line off coef) s =
      .next (storeDone line k (F32.mul s.cfg.ftz s.acc (s.coef coef)) s))

/-- The same for a modulated read (R216): `base + depth` inside the line, the size in `[-0.0, 1.0]`,
and an LFO output that obeys the laws of `WAVE`. -/
def Obligations.ModulatedReadsStayInTheLine : Prop :=
  ∀ (line : LineId) (base depth : Nat) (lfo : LfoId) (coef : Coef) (s : State), s.tickOpen = true →
    s.linesPlaced → SizeInUnit s.latch.size → Wave.inRange s.lfov[lfo] = true →
    base + depth < s.len[line] →
    ∃ v, exec (.rdm line base depth lfo coef) s = .next (readDone line v (s.coef coef) s)

/-! Mixer and filter. -/

/-- Silence preservation (R270): with `kAMT = +0.0` a finite nonzero sample passes a cross-fade
exactly, as long as `wet - F` is finite. -/
def Obligations.ZeroAmountKeepsTheSample : Prop :=
  ∀ (ch : Channel) (r : ScalarReg) (s : State), s.tickOpen = true → s.sv[r] = true →
    s.cfg.ftz = false → s.latch.amount = 0x00000000#32 →
    F32.isFinite (s.channel ch) = true → F32.isZero (s.channel ch) = false →
    F32.isFinite (F32.sub false s.sreg[r] (s.channel ch)) = true →
    exec (.xfade ch r) s = .next { s with upc := s.upc + 1 }

/-- The filter holds its state at coefficient 1.0 (R242): for finite `ACC - s` and a state other than
`-0.0`. -/
def Obligations.UnitCoefficientHoldsTheFilter : Prop :=
  ∀ (r : ScalarReg) (coef : Coef) (s : State), s.tickOpen = true → s.sv[r] = true →
    s.cfg.ftz = false → s.coef coef = 0x3F800000#32 →
    F32.isFinite (F32.sub false s.acc s.sreg[r]) = true → s.sreg[r] ≠ 0x80000000#32 →
    exec (.lp r coef) s = .next { s with acc := s.sreg[r], upc := s.upc + 1 }

/-! WAVE. -/

/-- The laws every accepted `WAVE` satisfies (R203): range `[0.0, 1.0]` without NaN, infinity,
subnormal or `-0.0`, and its four fixed points. -/
def Obligations.WaveObeysItsLaws : Prop :=
  ∀ (kind : WaveKind) (p : Word),
    (Wave.value kind p = 0#32 ∨
      (0x00800000 ≤ (Wave.value kind p).toNat ∧ (Wave.value kind p).toNat ≤ 0x3F800000)) ∧
    F32.isNaN (Wave.value kind p) = false ∧ F32.isInf (Wave.value kind p) = false ∧
    F32.isSubnormal (Wave.value kind p) = false ∧ F32.isNeg (Wave.value kind p) = false ∧
    Wave.value kind 0#32 = 0x3F000000#32 ∧ Wave.value kind 0x40000000#32 = 0x3F800000#32 ∧
    Wave.value kind 0x80000000#32 = 0x3F000000#32 ∧ Wave.value kind 0xC0000000#32 = 0#32

/-! Invariants. -/

/-- The invariant holds after reset. -/
def Obligations.InvariantHoldsAtReset : Prop := State.reset.Inv

/-- Every step keeps the invariant, host and platform moves included. -/
def Obligations.EveryStepKeepsTheInvariant : Prop :=
  ∀ s t : State, s.Inv → step s = .next t → t.Inv

/-- In states of the invariant no access leaves its space (R74, R82, R271): no step stops the model with
a fault of its own; while a block runs the current frame lies inside the block, for which FRAME_WINDOW
holds, and clear of the register window; and a step of the engine changes no byte of frame memory but
the current frame's. -/
def Obligations.NoStepLeavesTheStorage : Prop :=
  ∀ s : State, s.Inv →
    let a := s.blkBase.toNat + 8 * s.fidx.toNat
    s.Safe ∧
    (s.phase ≠ .idle →
      a + 8 ≤ s.blkBase.toNat + 8 * s.blkCount.toNat ∧ a + 8 ≤ 2 ^ 32 ∧
      Params.frameWindowHolds s.cfg s.blkBase.toNat (8 * s.blkCount.toNat) = true ∧
      ¬ OverlapsRegisterWindow s.cfg a 8) ∧
    (∀ (rest : List Move) (t : State), EngineTurn rest s → step s = .next t →
      ∀ b, readCell t.mem b ≠ readCell s.mem b → s.phase ≠ .idle ∧ a ≤ b ∧ b < a + 8)
end

