-- ==== Sys2Proof/Laws/Cells.lean ====
section
/-! SUPPORT. The laws of the sparse storages: every operation keeps the canonical form, a read after a
write to the same address gives the value written, and a write leaves every other address alone. -/

namespace Sys2Proof.Machine

variable {w : Nat}

theorem cellsFrom_mono {m : List (Nat × BitVec w)} {lo hi : Nat} (h : lo ≤ hi)
    (hm : cellsFrom hi m = true) : cellsFrom lo m = true := by
  cases m with
  | nil => rfl
  | cons c rest =>
    obtain ⟨b, v⟩ := c
    simp only [cellsFrom, Bool.and_eq_true, decide_eq_true_eq] at hm ⊢
    exact ⟨⟨by omega, hm.1.2⟩, hm.2⟩

/-- An address below every listed one reads as unlisted. -/
theorem readCell_below {m : List (Nat × BitVec w)} {lo a : Nat} (hm : cellsFrom lo m = true)
    (ha : a < lo) : readCell m a = unlisted w := by
  induction m generalizing lo with
  | nil => rfl
  | cons c rest ih =>
    obtain ⟨b, v⟩ := c
    simp only [cellsFrom, Bool.and_eq_true, decide_eq_true_eq] at hm
    have : a ≠ b := by omega
    simp only [readCell, this, if_false]
    exact ih hm.2 (by omega)

/-- A write keeps the canonical form. -/
theorem cellsFrom_writeCell {m : List (Nat × BitVec w)} {lo a : Nat} (v : BitVec w)
    (hm : cellsFrom lo m = true) (ha : lo ≤ a) : cellsFrom lo (writeCell m a v) = true := by
  induction m generalizing lo with
  | nil =>
    simp only [writeCell]
    split <;> simp_all [cellsFrom]
  | cons c rest ih =>
    obtain ⟨b, u⟩ := c
    simp only [cellsFrom, Bool.and_eq_true, decide_eq_true_eq] at hm
    simp only [writeCell]
    split
    · split
      · simp_all [cellsFrom]
      · simp only [cellsFrom, Bool.and_eq_true, decide_eq_true_eq]
        exact ⟨⟨ha, by simpa using ‹_›⟩, ⟨⟨by omega, hm.1.2⟩, hm.2⟩⟩
    · split
      · split
        · exact cellsFrom_mono (by omega) hm.2
        · subst a
          simp only [cellsFrom, Bool.and_eq_true, decide_eq_true_eq]
          exact ⟨⟨ha, by simpa using ‹_›⟩, hm.2⟩
      · simp only [cellsFrom, Bool.and_eq_true, decide_eq_true_eq]
        exact ⟨⟨hm.1.1, hm.1.2⟩, ih hm.2 (by omega)⟩

/-- What a write changes: the cell written, and nothing else. -/
theorem readCell_writeCell {m : List (Nat × BitVec w)} {lo : Nat} (hm : cellsFrom lo m = true)
    (a b : Nat) (v : BitVec w) :
    readCell (writeCell m a v) b = if b = a then v else readCell m b := by
  induction m generalizing lo with
  | nil =>
    simp only [writeCell]
    split <;> simp_all [readCell]
  | cons c rest ih =>
    obtain ⟨x, u⟩ := c
    simp only [cellsFrom, Bool.and_eq_true, decide_eq_true_eq] at hm
    simp only [writeCell]
    split
    · rename_i hax
      split
      · rename_i hv
        by_cases hb : b = a
        · subst hb
          have : b ≠ x := by omega
          simp only [readCell, this, if_false, if_true, hv]
          exact readCell_below hm.2 (by omega)
        · simp [hb]
      · simp [readCell]
    · split
      · rename_i hax
        subst hax
        split
        · rename_i hv
          by_cases hb : b = a
          · simp only [hb, if_true, hv]
            exact readCell_below hm.2 (by omega)
          · simp [readCell, hb]
        · by_cases hb : b = a <;> simp [readCell, hb]
      · rename_i hlt hne
        by_cases hb : b = x
        · have : ¬ x = a := fun h => hne h.symm
          simp [readCell, hb, this]
        · simp only [readCell, hb, if_false]
          exact ih hm.2

/-- Reading back the cell just written. -/
theorem readCell_writeCell_same {m : List (Nat × BitVec w)} (hm : cellsFrom 0 m = true) (a : Nat)
    (v : BitVec w) : readCell (writeCell m a v) a = v := by
  simp [readCell_writeCell hm]

/-- A write leaves every other cell alone. -/
theorem readCell_writeCell_other {m : List (Nat × BitVec w)} (hm : cellsFrom 0 m = true) {a b : Nat}
    (v : BitVec w) (h : b ≠ a) : readCell (writeCell m a v) b = readCell m b := by
  simp [readCell_writeCell hm, h]

/-- Every entry after a write is the one written or was there before. -/
theorem mem_writeCell {m : List (Nat × BitVec w)} {a : Nat} {v : BitVec w} {c : Nat × BitVec w}
    (h : c ∈ writeCell m a v) : c = (a, v) ∨ c ∈ m := by
  induction m with
  | nil =>
    simp only [writeCell] at h
    split at h <;> simp_all
  | cons d rest ih =>
    obtain ⟨b, u⟩ := d
    simp only [writeCell] at h
    split at h
    · split at h
      · exact .inr h
      · simpa using h
    · split at h
      · split at h
        · exact .inr (List.mem_cons_of_mem _ h)
        · rcases List.mem_cons.1 h with h | h
          · exact .inl h
          · exact .inr (List.mem_cons_of_mem _ h)
      · rcases List.mem_cons.1 h with h | h
        · exact .inr (by simp [h])
        · rcases ih h with h | h
          · exact .inl h
          · exact .inr (List.mem_cons_of_mem _ h)

theorem Arena.wf_iff (m : Arena) :
    Arena.wf m = true ↔ cellsFrom 0 m = true ∧ ∀ c ∈ m, c.1 < arenaUnits := by
  simp [Arena.wf]

/-- A write inside the arena keeps its canonical form (R70). -/
theorem Arena.wf_writeCell {m : Arena} (hm : Arena.wf m = true) {a : Nat} (ha : a < arenaUnits)
    (v : Word) : Arena.wf (writeCell m a v) = true := by
  rw [Arena.wf_iff] at hm ⊢
  refine ⟨cellsFrom_writeCell v hm.1 (Nat.zero_le a), fun c hc => ?_⟩
  rcases mem_writeCell hc with rfl | hc
  · exact ha
  · exact hm.2 c hc

theorem Memory.wf_writeCell {m : Memory} (hm : Memory.wf m = true) (a : Nat) (v : Byte) :
    Memory.wf (writeCell m a v) = true :=
  cellsFrom_writeCell v hm (Nat.zero_le a)

/-- A frame-memory word write keeps the canonical form. -/
theorem Memory.wf_writeFrameWord {m : Memory} (hm : Memory.wf m = true) (a : Nat) (v : Word) :
    Memory.wf (writeFrameWord m a v) = true :=
  Memory.wf_writeCell (Memory.wf_writeCell (Memory.wf_writeCell (Memory.wf_writeCell hm _ _) _ _) _ _) _ _

/-- The bytes of a word written to frame memory, little-endian (R84); every other byte stays. -/
theorem readCell_writeFrameWord {m : Memory} (hm : Memory.wf m = true) (a b : Nat) (v : Word) :
    readCell (writeFrameWord m a v) b =
      if b = a + 3 then v.extractLsb' 24 8
      else if b = a + 2 then v.extractLsb' 16 8
      else if b = a + 1 then v.extractLsb' 8 8
      else if b = a then v.extractLsb' 0 8
      else readCell m b := by
  have h1 := Memory.wf_writeCell hm a (v.extractLsb' 0 8)
  have h2 := Memory.wf_writeCell h1 (a + 1) (v.extractLsb' 8 8)
  have h3 := Memory.wf_writeCell h2 (a + 2) (v.extractLsb' 16 8)
  simp only [writeFrameWord]
  rw [readCell_writeCell (lo := 0) h3, readCell_writeCell (lo := 0) h2, readCell_writeCell (lo := 0) h1,
    readCell_writeCell (lo := 0) hm]

/-- A word written to frame memory reads back. -/
theorem readFrameWord_writeFrameWord {m : Memory} (hm : Memory.wf m = true) (a : Nat) (v : Word) :
    readFrameWord (writeFrameWord m a v) a = v := by
  simp only [readFrameWord, readCell_writeFrameWord hm]
  simp only [show ¬ a + 2 = a + 3 by omega, show ¬ a + 1 = a + 3 by omega,
    show ¬ a + 1 = a + 2 by omega, show ¬ a = a + 3 by omega, show ¬ a = a + 2 by omega,
    show ¬ a = a + 1 by omega, if_true, if_false]
  refine BitVec.eq_of_getLsbD_eq fun i hi => ?_
  simp only [BitVec.getLsbD_append, BitVec.getLsbD_extractLsb']
  split
  · simp [*]
  · split
    · rw [show 8 + (i - 8) = i by omega]; simp [*]
    · split
      · rw [show 16 + (i - 8 - 8) = i by omega]; simp [*]
      · rw [show 24 + (i - 8 - 8 - 8) = i by omega]
        simp
        omega

theorem unitOf_idem (fmt : StoreFmt) (u : Word) : unitOf fmt (unitOf fmt u) = unitOf fmt u := by
  cases fmt with
  | f32 => rfl
  | q15s => simp [unitOf]

/-- The arena a reset installs is canonical, whatever list the move brings. -/
theorem arenaOf_wf (fmt : StoreFmt) (units : Arena) : Arena.wf (arenaOf fmt units) = true := by
  suffices h : ∀ (l : Arena) (m : Arena), Arena.wf m = true →
      Arena.wf (l.foldl (fun m c => if c.1 < arenaUnits then writeCell m c.1 (unitOf fmt c.2) else m) m) = true from
    h units [] rfl
  intro l
  induction l with
  | nil => exact fun m hm => hm
  | cons c rest ih =>
    intro m hm
    simp only [List.foldl_cons]
    split
    · exact ih _ (Arena.wf_writeCell hm ‹_› _)
    · exact ih _ hm

/-- Its units have the format's width. -/
theorem arenaOf_units (fmt : StoreFmt) (units : Arena) :
    ∀ c ∈ arenaOf fmt units, unitOf fmt c.2 = c.2 := by
  suffices h : ∀ (l : Arena) (m : Arena), (∀ c ∈ m, unitOf fmt c.2 = c.2) →
      ∀ c ∈ l.foldl (fun m c => if c.1 < arenaUnits then writeCell m c.1 (unitOf fmt c.2) else m) m,
        unitOf fmt c.2 = c.2 from
    h units [] (by simp)
  intro l
  induction l with
  | nil => exact fun m hm => hm
  | cons d rest ih =>
    intro m hm
    simp only [List.foldl_cons]
    split
    · refine ih _ fun c hc => ?_
      rcases mem_writeCell hc with rfl | hc
      · exact unitOf_idem fmt d.2
      · exact hm c hc
    · exact ih _ hm

end Sys2Proof.Machine
end

