-- ==== Sys2Proof/Laws/PerInstr.lean ====
section
/-! SUPPORT. Facts said once for each instruction: its word is its opcode and its operand field, and
nothing spills out of either (spec/30_encoding.md R101 to R109). -/

namespace Sys2Proof

/-- A coefficient select is a 3-bit number (R102). -/
theorem Coef.code_lt (c : Coef) : c.code < 8 := by cases c <;> decide

/-- An input source is a 2-bit number (R107). -/
theorem InSrc.code_lt (x : InSrc) : x.code < 3 := by cases x <;> decide

/-- A channel is a 1-bit number (R108). -/
theorem Channel.code_lt (x : Channel) : x.code < 2 := by cases x <;> decide

/-- A well-formed offset fills bits 20:0 of format R (R103). -/
theorem Offset.field_lt {off : Offset} (h : off.wf = true) : off.field < 2 ^ 21 := by
  cases off <;> simp_all [Offset.wf, Offset.field] <;> omega

/-- The coefficient of a coefficient's code (R110). -/
@[simp] theorem Coef.ofCode_code (c : Coef) : Coef.ofCode c.code = c := by cases c <;> rfl

/-- The code of the coefficient of a 3-bit number (R110). -/
theorem Coef.code_ofCode {n : Nat} (h : n < 8) : (Coef.ofCode n).code = n := by
  interval_cases n <;> rfl

end Sys2Proof

/-- A well-formed instruction's word is its opcode in bits 31:28 and its operands below. -/
def Sys2Proof.Laws.OpcodeField.Statement (i : Sys2Proof.Instr) : Prop :=
  i.wf = true →
    i.operandField < 2 ^ 28 ∧ (Sys2Proof.encode i).toNat = i.opcode * 2 ^ 28 + i.operandField

namespace Sys2Proof.Laws.OpcodeField

open Sys2Proof

theorem nop : Statement .nop := fun _ => by decide

theorem start : Statement .start := fun _ => by decide

theorem rdin (src : InSrc) (coef : Coef) : Statement (.rdin src coef) := fun _ => by
  have := src.code_lt
  have := coef.code_lt
  simp only [Instr.operandField, Instr.opcode, encode, BitVec.toNat_ofNat]
  omega

theorem rd (line : LineId) (off : Offset) (coef : Coef) : Statement (.rd line off coef) := fun h => by
  have := coef.code_lt
  have := Offset.field_lt (off := off) h
  simp only [Instr.operandField, Instr.opcode, encode, BitVec.toNat_ofNat]
  omega

theorem rdm (line : LineId) (base depth : Nat) (lfo : LfoId) (coef : Coef) :
    Statement (.rdm line base depth lfo coef) := fun h => by
  have := coef.code_lt
  simp only [Instr.wf, Bool.and_eq_true, decide_eq_true_eq] at h
  simp only [Instr.operandField, Instr.opcode, encode, BitVec.toNat_ofNat]
  omega

theorem wrap (line : LineId) (coef : Coef) : Statement (.wrap line coef) := fun _ => by
  have := coef.code_lt
  simp only [Instr.operandField, Instr.opcode, encode, BitVec.toNat_ofNat]
  omega

theorem wr (line : LineId) (off : Offset) (coef : Coef) : Statement (.wr line off coef) := fun h => by
  have := coef.code_lt
  have := Offset.field_lt (off := off) h
  simp only [Instr.operandField, Instr.opcode, encode, BitVec.toNat_ofNat]
  omega

theorem wrout (reg : ScalarReg) (coef : Coef) : Statement (.wrout reg coef) := fun _ => by
  have := coef.code_lt
  simp only [Instr.operandField, Instr.opcode, encode, BitVec.toNat_ofNat]
  omega

theorem ld (reg : ScalarReg) : Statement (.ld reg) := fun _ => by
  simp only [Instr.operandField, Instr.opcode, encode, BitVec.toNat_ofNat]
  omega

theorem lp (reg : ScalarReg) (coef : Coef) : Statement (.lp reg coef) := fun _ => by
  have := coef.code_lt
  simp only [Instr.operandField, Instr.opcode, encode, BitVec.toNat_ofNat]
  omega

theorem xfade (ch : Channel) (reg : ScalarReg) : Statement (.xfade ch reg) := fun _ => by
  have := ch.code_lt
  simp only [Instr.operandField, Instr.opcode, encode, BitVec.toNat_ofNat]
  omega

theorem eof : Statement .eof := fun _ => by decide

end Sys2Proof.Laws.OpcodeField
end

