-- ==== Sys2Proof/Laws/Decode.lean ====
section
/-! SUPPORT. The decoder read by its opcode field, and the fields of a word. Proofs about
`decode (encode i)` go through these: unfolding `decode` at an encoded word makes Lean evaluate the
word's arithmetic. -/

namespace Sys2Proof

/-- A field is below its size. -/
theorem bits_lt (w : Word) (lo len : Nat) : bits w lo len < 2 ^ len :=
  Nat.mod_lt _ (Nat.two_pow_pos len)

/-- The field as a bit vector (R7). -/
theorem toNat_extractLsb'_eq_bits (w : Word) (lo len : Nat) :
    (w.extractLsb' lo len).toNat = bits w lo len := by
  simp [bits, Nat.shiftRight_eq_div_pow]

/-- A field of bits 20:0, from the number they hold. -/
theorem bits_of_low21 {w : Word} {n lo len : Nat} (h : bits w 0 21 = n) (hl : lo + len ≤ 21) :
    bits w lo len = n / 2 ^ lo % 2 ^ len := by
  subst h
  simp only [bits, pow_zero, Nat.div_one, ← Nat.shiftRight_eq_div_pow]
  refine Nat.eq_of_testBit_eq fun i => ?_
  simp only [Nat.testBit_mod_two_pow, Nat.testBit_shiftRight]
  by_cases hi : i < len
  · simp [hi, show lo + i < 21 by omega]
  · simp [hi]

/-! The opcode's format (R101). -/

theorem decode_nop {w : Word} (h : bits w 28 4 = 0) : decode w = decodeN .nop w := by
  unfold decode; rw [h]; rfl

theorem decode_start {w : Word} (h : bits w 28 4 = 1) : decode w = decodeN .start w := by
  unfold decode; rw [h]; rfl

theorem decode_rdin {w : Word} (h : bits w 28 4 = 2) : decode w = decodeI w := by
  unfold decode; rw [h]; rfl

theorem decode_rd {w : Word} (h : bits w 28 4 = 3) : decode w = decodeR .rd w := by
  unfold decode; rw [h]; rfl

theorem decode_rdm {w : Word} (h : bits w 28 4 = 4) : decode w = decodeM w := by
  unfold decode; rw [h]; rfl

theorem decode_wrap {w : Word} (h : bits w 28 4 = 5) : decode w = decodeA w := by
  unfold decode; rw [h]; rfl

theorem decode_wr {w : Word} (h : bits w 28 4 = 6) : decode w = decodeR .wr w := by
  unfold decode; rw [h]; rfl

theorem decode_wrout {w : Word} (h : bits w 28 4 = 7) : decode w = decodeS .wrout w := by
  unfold decode; rw [h]; rfl

theorem decode_ld {w : Word} (h : bits w 28 4 = 8) : decode w = decodeLd w := by
  unfold decode; rw [h]; rfl

theorem decode_lp {w : Word} (h : bits w 28 4 = 9) : decode w = decodeS .lp w := by
  unfold decode; rw [h]; rfl

theorem decode_xfade {w : Word} (h : bits w 28 4 = 10) : decode w = decodeX w := by
  unfold decode; rw [h]; rfl

theorem decode_eof {w : Word} (h : bits w 28 4 = 11) : decode w = decodeN .eof w := by
  unfold decode; rw [h]; rfl

theorem decode_reserved {w : Word} (h : 12 ≤ bits w 28 4) : decode w = .illegal .reservedOpcode := by
  have := bits_lt w 28 4
  unfold decode
  generalize bits w 28 4 = op at *
  interval_cases op <;> rfl

/-- The line field of a word (R102). -/
theorem lineField_eq {w : Word} {l : LineId} (h : bits w 24 4 = l.val) : lineField w = some l := by
  unfold lineField
  rw [dif_pos (h ▸ l.isLt)]
  exact congrArg some (Fin.ext h)

/-- A scalar register field of a word (R102). -/
theorem scalarField_eq {w : Word} {lo : Nat} {r : ScalarReg} (h : bits w lo 4 = r.val) :
    scalarField w lo = some r := by
  unfold scalarField
  rw [dif_pos (h ▸ r.isLt)]
  exact congrArg some (Fin.ext h)

/-- The coefficient field of a word (R110). -/
theorem coefField_eq {w : Word} {c : Coef} (h : bits w 21 3 = c.code) : coefField w = c := by
  unfold coefField
  rw [h, Coef.ofCode_code]

end Sys2Proof
end

