-- ==== Sys2Proof/Laws/Float.lean ====
section
/-! SUPPORT. The fields of a binary32 pattern, its class, its sign, and the order of the magnitudes.
Proofs about the arithmetic cite these and never unfold a field. -/

namespace Sys2Proof.F32

/-! `pack`: a sign and a packed magnitude `e * 2^23 + f`. -/

theorem toNat_pack {neg : Bool} {m : Nat} (h : m < 2 ^ 31) :
    (pack neg m).toNat = (if neg then 2 ^ 31 else 0) + m := by
  unfold pack
  rw [BitVec.toNat_ofNat]
  cases neg
  · simp; omega
  · simp; omega

theorem isNeg_pack {neg : Bool} {m : Nat} (h : m < 2 ^ 31) : isNeg (pack neg m) = neg := by
  unfold isNeg
  rw [toNat_pack h]
  cases neg <;> simp <;> omega

theorem expField_pack {neg : Bool} {m : Nat} (h : m < 2 ^ 31) :
    expField (pack neg m) = m / 2 ^ 23 := by
  unfold expField
  rw [toNat_pack h]
  cases neg <;> simp <;> omega

theorem fracField_pack {neg : Bool} {m : Nat} (h : m < 2 ^ 31) :
    fracField (pack neg m) = m % 2 ^ 23 := by
  unfold fracField
  rw [toNat_pack h]
  cases neg <;> simp <;> omega

/-- Every pattern is its sign and its packed magnitude. -/
theorem eq_pack (a : F32) : a = pack (isNeg a) (a.toNat % 2 ^ 31) := by
  refine BitVec.eq_of_toNat_eq ?_
  rw [toNat_pack (Nat.mod_lt _ (by decide))]
  have := a.isLt
  by_cases h : 2 ^ 31 ≤ a.toNat
  · simp only [isNeg, h, decide_true, if_true]
    omega
  · simp only [isNeg, h, decide_false]
    simp
    omega

theorem expField_lt (a : F32) : expField a < 256 := Nat.mod_lt _ (by decide)

theorem fracField_lt (a : F32) : fracField a < 2 ^ 23 := Nat.mod_lt _ (by decide)

/-- The packed magnitude is the exponent field and the fraction. -/
theorem magnitude_eq (a : F32) : a.toNat % 2 ^ 31 = expField a * 2 ^ 23 + fracField a := by
  unfold expField fracField
  omega

/-! Classes. -/

theorem isFinite_iff (a : F32) : isFinite a = true ↔ isNaN a = false ∧ isInf a = false := by
  unfold isFinite isNaN isInf
  cases h : expField a == 255 <;> cases h' : fracField a == 0 <;> simp_all

theorem isFinite_of_isZero {a : F32} (h : isZero a = true) : isFinite a = true := by
  unfold isZero at h
  unfold isFinite
  simp_all

theorem isFinite_of_isSubnormal {a : F32} (h : isSubnormal a = true) : isFinite a = true := by
  unfold isSubnormal at h
  unfold isFinite
  simp_all

theorem isZero_iff_mant (a : F32) : isZero a = true ↔ expField a = 0 ∧ mant a = 0 := by
  unfold isZero mant
  by_cases h : expField a = 0 <;> simp [h]

theorem mant_lt (a : F32) : mant a < 2 ^ 24 := by
  have := fracField_lt a
  unfold mant
  split <;> omega

theorem bexp_pos (a : F32) : 1 ≤ bexp a := by
  unfold bexp
  split <;> omega

theorem bexp_le {a : F32} (h : isFinite a = true) : bexp a ≤ 254 := by
  have := expField_lt a
  have h : expField a ≠ 255 := by simpa [isFinite] using h
  unfold bexp
  split <;> omega

@[simp] theorem isZero_zero (neg : Bool) : isZero (zero neg) = true := by cases neg <;> decide

@[simp] theorem isNeg_zero (neg : Bool) : isNeg (zero neg) = neg := by cases neg <;> decide

@[simp] theorem isSubnormal_zero (neg : Bool) : isSubnormal (zero neg) = false := by
  cases neg <;> decide

@[simp] theorem isInf_inf (neg : Bool) : isInf (inf neg) = true := by cases neg <;> decide

@[simp] theorem isNeg_inf (neg : Bool) : isNeg (inf neg) = neg := by cases neg <;> decide

@[simp] theorem isNaN_canonicalNaN : isNaN canonicalNaN = true := by decide

/-- A zero is the zero of its sign. -/
theorem eq_zero_of_isZero {a : F32} (h : isZero a = true) : a = zero (isNeg a) := by
  have hm := magnitude_eq a
  simp only [isZero, Bool.and_eq_true, beq_iff_eq] at h
  rw [h.1, h.2] at hm
  have he := eq_pack a
  rw [hm] at he
  exact he

/-- An infinity is the infinity of its sign. -/
theorem eq_inf_of_isInf {a : F32} (h : isInf a = true) : a = inf (isNeg a) := by
  have hm := magnitude_eq a
  simp only [isInf, Bool.and_eq_true, beq_iff_eq] at h
  rw [h.1, h.2] at hm
  have he := eq_pack a
  rw [hm] at he
  exact he

/-! Negation. -/

theorem toNat_neg (a : F32) :
    (neg a).toNat = if 2 ^ 31 ≤ a.toNat then a.toNat - 2 ^ 31 else a.toNat + 2 ^ 31 := by
  have ha := a.isLt
  have hx : (neg a).toNat = a.toNat ^^^ 2 ^ 31 := by
    unfold neg
    rw [BitVec.toNat_xor]
    rfl
  have hm := Nat.xor_mod_two_pow (a := a.toNat) (b := 2 ^ 31) (n := 31)
  have hd := Nat.xor_div_two_pow (a := a.toNat) (b := 2 ^ 31) (n := 31)
  rw [Nat.mod_self, Nat.xor_zero] at hm
  rw [Nat.div_self (by decide)] at hd
  rw [← hx] at hm hd
  split
  · rw [show a.toNat / 2 ^ 31 = 1 by omega] at hd
    have hd : (neg a).toNat / 2 ^ 31 = 0 := hd
    omega
  · rw [show a.toNat / 2 ^ 31 = 0 by omega] at hd
    have hd : (neg a).toNat / 2 ^ 31 = 1 := hd
    omega

theorem isNeg_neg (a : F32) : isNeg (neg a) = !isNeg a := by
  have := a.isLt
  unfold isNeg
  rw [toNat_neg, ← decide_not, decide_eq_decide]
  split <;> omega

theorem expField_neg (a : F32) : expField (neg a) = expField a := by
  have := a.isLt
  unfold expField
  rw [toNat_neg]
  split <;> omega

theorem fracField_neg (a : F32) : fracField (neg a) = fracField a := by
  have := a.isLt
  unfold fracField
  rw [toNat_neg]
  split <;> omega

theorem neg_neg (a : F32) : neg (neg a) = a := by
  unfold neg
  rw [BitVec.xor_assoc, BitVec.xor_self, BitVec.xor_zero]

theorem mant_neg (a : F32) : mant (neg a) = mant a := by
  unfold mant
  rw [expField_neg, fracField_neg]

theorem bexp_neg (a : F32) : bexp (neg a) = bexp a := by
  unfold bexp
  rw [expField_neg]

theorem signedMant_neg (a : F32) : signedMant (neg a) = - signedMant a := by
  unfold signedMant
  rw [isNeg_neg, mant_neg]
  cases isNeg a <;> simp

theorem isFinite_neg (a : F32) : isFinite (neg a) = isFinite a := by
  unfold isFinite
  rw [expField_neg]

theorem isNaN_neg (a : F32) : isNaN (neg a) = isNaN a := by
  unfold isNaN
  rw [expField_neg, fracField_neg]

/-! Flushing (R15). -/

@[simp] theorem flush_false (a : F32) : flush false a = a := rfl

theorem flush_of_not_subnormal {ftz : Bool} {a : F32} (h : isSubnormal a = false) :
    flush ftz a = a := by
  simp [flush, h]

theorem flush_of_subnormal {a : F32} (h : isSubnormal a = true) : flush true a = zero (isNeg a) := by
  simp [flush, h]

theorem isSubnormal_flush (a : F32) : isSubnormal (flush true a) = false := by
  cases h : isSubnormal a
  · rw [flush_of_not_subnormal h, h]
  · rw [flush_of_subnormal h, isSubnormal_zero]

theorem isNeg_flush (ftz : Bool) (a : F32) : isNeg (flush ftz a) = isNeg a := by
  unfold flush
  split <;> simp

theorem flush_flush (a : F32) : flush true (flush true a) = flush true a :=
  flush_of_not_subnormal (isSubnormal_flush a)

theorem isNaN_flush (ftz : Bool) (a : F32) : isNaN (flush ftz a) = isNaN a := by
  unfold flush
  split
  · rename_i h
    have h : isSubnormal a = true := by simp_all
    have hz : isNaN (zero (isNeg a)) = false := by cases isNeg a <;> decide
    have hf := (isFinite_iff a).mp (isFinite_of_isSubnormal h)
    rw [hz, hf.1]
  · rfl

theorem isInf_neg (a : F32) : isInf (neg a) = isInf a := by
  unfold isInf
  rw [expField_neg, fracField_neg]

theorem isSubnormal_neg (a : F32) : isSubnormal (neg a) = isSubnormal a := by
  unfold isSubnormal
  rw [expField_neg, fracField_neg]

theorem neg_zero (n : Bool) : neg (zero n) = zero (!n) := by cases n <;> decide

theorem flush_neg (ftz : Bool) (a : F32) : flush ftz (neg a) = neg (flush ftz a) := by
  unfold flush
  rw [isSubnormal_neg, isNeg_neg]
  split
  · rw [neg_zero]
  · rfl

theorem isInf_flush (ftz : Bool) (a : F32) : isInf (flush ftz a) = isInf a := by
  unfold flush
  split
  · rename_i h
    have h : isSubnormal a = true := by simp_all
    have hz : isInf (zero (isNeg a)) = false := by cases isNeg a <;> decide
    rw [hz, ((isFinite_iff a).mp (isFinite_of_isSubnormal h)).2]
  · rfl

theorem flush_of_isInf {ftz : Bool} {a : F32} (h : isInf a = true) : flush ftz a = a := by
  apply flush_of_not_subnormal
  simp only [isInf, Bool.and_eq_true, beq_iff_eq] at h
  simp [isSubnormal, h.1]

@[simp] theorem flush_zero (ftz n : Bool) : flush ftz (zero n) = zero n :=
  flush_of_not_subnormal (isSubnormal_zero n)

@[simp] theorem flush_inf (ftz n : Bool) : flush ftz (inf n) = inf n := flush_of_isInf (isInf_inf n)

@[simp] theorem flush_canonicalNaN (ftz : Bool) : flush ftz canonicalNaN = canonicalNaN :=
  flush_of_not_subnormal (by decide)

/-- A result that is a zero after flushing has the sign of the result before. -/
theorem eq_zero_of_isZero_flush {ftz : Bool} {r : F32} (h : isZero (flush ftz r) = true) :
    flush ftz r = zero (isNeg r) := by
  have h := eq_zero_of_isZero h
  rwa [isNeg_flush] at h

/-! `round`: its sign, and that it gives no NaN. -/

theorem roundMagnitude_le (m : Nat) (x : Int) : roundMagnitude m x ≤ 0x7F800000 := by
  unfold roundMagnitude
  dsimp only
  split
  · exact Nat.le_refl _
  · exact Nat.min_le_right _ _

theorem isNeg_round (neg : Bool) (m : Nat) (x : Int) : isNeg (round neg m x) = neg := by
  have := roundMagnitude_le m x
  unfold round
  split
  · exact isNeg_zero neg
  · exact isNeg_pack (by omega)

theorem isNaN_round (neg : Bool) (m : Nat) (x : Int) : isNaN (round neg m x) = false := by
  have h := roundMagnitude_le m x
  unfold round
  split
  · cases neg <;> decide
  · unfold isNaN
    rw [expField_pack (by omega), fracField_pack (by omega), Bool.and_eq_false_imp]
    intro he
    have he : roundMagnitude m x / 2 ^ 23 = 255 := by simpa using he
    have : roundMagnitude m x % 2 ^ 23 = 0 := by omega
    rw [this]
    rfl

/-! The value of a packed magnitude, in units of 2^-149, and its order. -/

/-- The value of the pattern whose packed magnitude is `p`, in units of 2^-149. -/
def magnitudeUnits (p : Nat) : Nat :=
  if p / 2 ^ 23 = 0 then p else (2 ^ 23 + p % 2 ^ 23) * 2 ^ (p / 2 ^ 23 - 1)

/-- A pattern's value is its magnitude's. -/
theorem mant_mul_two_pow (a : F32) :
    mant a * 2 ^ (bexp a - 1) = magnitudeUnits (a.toNat % 2 ^ 31) := by
  have hm := magnitude_eq a
  have hf := fracField_lt a
  have he : a.toNat % 2 ^ 31 / 2 ^ 23 = expField a := by omega
  have hr : a.toNat % 2 ^ 31 % 2 ^ 23 = fracField a := by omega
  unfold magnitudeUnits mant bexp
  rw [he, hr]
  split
  · rename_i h
    rw [h] at hm
    omega
  · rfl

/-- The next magnitude's value is larger. -/
theorem magnitudeUnits_lt_succ (p : Nat) : magnitudeUnits p < magnitudeUnits (p + 1) := by
  unfold magnitudeUnits
  by_cases h0 : p / 2 ^ 23 = 0
  · by_cases h1 : (p + 1) / 2 ^ 23 = 0
    · rw [if_pos h0, if_pos h1]
      omega
    · have hp : p + 1 = 2 ^ 23 := by omega
      rw [if_pos h0, if_neg h1, hp]
      omega
  · by_cases h1 : (p + 1) / 2 ^ 23 = p / 2 ^ 23
    · rw [if_neg h0, h1, if_neg h0]
      refine Nat.mul_lt_mul_of_pos_right ?_ (Nat.two_pow_pos _)
      omega
    · have hq : (p + 1) / 2 ^ 23 = p / 2 ^ 23 + 1 := by omega
      rw [if_neg h0, hq, if_neg (by omega), show p / 2 ^ 23 + 1 - 1 = p / 2 ^ 23 - 1 + 1 by omega,
        show (p + 1) % 2 ^ 23 = 0 by omega, show p % 2 ^ 23 = 2 ^ 23 - 1 by omega,
        Nat.pow_succ 2 (p / 2 ^ 23 - 1)]
      have := Nat.two_pow_pos (p / 2 ^ 23 - 1)
      generalize 2 ^ (p / 2 ^ 23 - 1) = c at *
      omega

/-- Magnitudes are ordered as their patterns are. -/
theorem magnitudeUnits_strictMono : StrictMono magnitudeUnits :=
  strictMono_nat_of_lt_succ magnitudeUnits_lt_succ

/-! Rounding an integer division (R10). -/

/-- The distance from `m / 2^d` to its rounding is at most one half. -/
theorem roundShift_near (m d : Nat) :
    2 * m ≤ 2 * (roundShift m d * 2 ^ d) + 2 ^ d ∧ 2 * (roundShift m d * 2 ^ d) ≤ 2 * m + 2 ^ d := by
  have hd := Nat.div_add_mod m (2 ^ d)
  have hlt := Nat.mod_lt m (Nat.two_pow_pos d)
  unfold roundShift
  dsimp only
  generalize m / 2 ^ d = q at *
  generalize m % 2 ^ d = r at *
  generalize 2 ^ d = c at *
  rw [Nat.mul_comm] at hd
  split
  · rw [Nat.add_mul]
    omega
  · split
    · rcases Nat.mod_two_eq_zero_or_one q with h | h <;> rw [h, Nat.add_mul] <;> omega
    · omega

/-- At exactly one half the result is even. -/
theorem roundShift_tie {m d : Nat} (h : 2 * (m % 2 ^ d) = 2 ^ d) : roundShift m d % 2 = 0 := by
  unfold roundShift
  dsimp only
  rw [if_neg (by omega), if_pos h]
  omega

/-- A multiple of the divisor rounds to the quotient. -/
theorem roundShift_exact {m d : Nat} (h : m % 2 ^ d = 0) : roundShift m d = m / 2 ^ d := by
  have := Nat.two_pow_pos d
  unfold roundShift
  dsimp only
  rw [h, if_neg (by omega), if_neg (by omega)]

/-- Rounding keeps order. -/
theorem roundShift_mono {m n : Nat} (d : Nat) (h : m ≤ n) : roundShift m d ≤ roundShift n d := by
  have hm := roundShift_near m d
  have hn := roundShift_near n d
  by_contra hlt
  have hlt : roundShift n d + 1 ≤ roundShift m d := by omega
  have hc := Nat.mul_le_mul_right (2 ^ d) hlt
  rw [Nat.add_mul] at hc
  have hmn : m = n := by omega
  subst hmn
  omega

end Sys2Proof.F32
end

