-- ==== Sys2Proof/Laws/State.lean ====
section
/-! SUPPORT. Each field of the state after each shared update (`Machine/Ops.lean`). -/

namespace Sys2Proof.Machine

variable (s : State)

/-! `advance`. -/

@[simp] theorem advance_inited : (State.advance s).inited = s.inited := rfl
@[simp] theorem advance_phase : (State.advance s).phase = s.phase := rfl
@[simp] theorem advance_fault : (State.advance s).fault = s.fault := rfl
@[simp] theorem advance_fcause : (State.advance s).fcause = s.fcause := rfl
@[simp] theorem advance_fupc : (State.advance s).fupc = s.fupc := rfl
@[simp] theorem advance_fsrc : (State.advance s).fsrc = s.fsrc := rfl
@[simp] theorem advance_fframe : (State.advance s).fframe = s.fframe := rfl
@[simp] theorem advance_frameBase : (State.advance s).frameBase = s.frameBase := rfl
@[simp] theorem advance_frameCount : (State.advance s).frameCount = s.frameCount := rfl
@[simp] theorem advance_param : (State.advance s).param = s.param := rfl
@[simp] theorem advance_pv : (State.advance s).pv = s.pv := rfl
@[simp] theorem advance_blkBase : (State.advance s).blkBase = s.blkBase := rfl
@[simp] theorem advance_blkCount : (State.advance s).blkCount = s.blkCount := rfl
@[simp] theorem advance_fidx : (State.advance s).fidx = s.fidx := rfl
@[simp] theorem advance_framesDone : (State.advance s).framesDone = s.framesDone := rfl
@[simp] theorem advance_upc : (State.advance s).upc = s.upc + 1 := rfl
@[simp] theorem advance_tickOpen : (State.advance s).tickOpen = s.tickOpen := rfl
@[simp] theorem advance_acc : (State.advance s).acc = s.acc := rfl
@[simp] theorem advance_prev : (State.advance s).prev = s.prev := rfl
@[simp] theorem advance_prevTag : (State.advance s).prevTag = s.prevTag := rfl
@[simp] theorem advance_latch : (State.advance s).latch = s.latch := rfl
@[simp] theorem advance_lfov : (State.advance s).lfov = s.lfov := rfl
@[simp] theorem advance_sreg : (State.advance s).sreg = s.sreg := rfl
@[simp] theorem advance_sv : (State.advance s).sv = s.sv := rfl
@[simp] theorem advance_fl : (State.advance s).fl = s.fl := rfl
@[simp] theorem advance_fr : (State.advance s).fr = s.fr := rfl
@[simp] theorem advance_len : (State.advance s).len = s.len := rfl
@[simp] theorem advance_base : (State.advance s).base = s.base := rfl
@[simp] theorem advance_wp : (State.advance s).wp = s.wp := rfl
@[simp] theorem advance_ph : (State.advance s).ph = s.ph := rfl
@[simp] theorem advance_inc : (State.advance s).inc = s.inc := rfl
@[simp] theorem advance_arena : (State.advance s).arena = s.arena := rfl
@[simp] theorem advance_mem : (State.advance s).mem = s.mem := rfl
@[simp] theorem advance_ucode : (State.advance s).ucode = s.ucode := rfl
@[simp] theorem advance_cfg : (State.advance s).cfg = s.cfg := rfl
@[simp] theorem advance_moves : (State.advance s).moves = s.moves := rfl
@[simp] theorem advance_hostData : (State.advance s).hostData = s.hostData := rfl

/-! `setAcc`. -/

@[simp] theorem setAcc_inited (v : F32) : (State.setAcc v s).inited = s.inited := rfl
@[simp] theorem setAcc_phase (v : F32) : (State.setAcc v s).phase = s.phase := rfl
@[simp] theorem setAcc_fault (v : F32) : (State.setAcc v s).fault = s.fault := rfl
@[simp] theorem setAcc_fcause (v : F32) : (State.setAcc v s).fcause = s.fcause := rfl
@[simp] theorem setAcc_fupc (v : F32) : (State.setAcc v s).fupc = s.fupc := rfl
@[simp] theorem setAcc_fsrc (v : F32) : (State.setAcc v s).fsrc = s.fsrc := rfl
@[simp] theorem setAcc_fframe (v : F32) : (State.setAcc v s).fframe = s.fframe := rfl
@[simp] theorem setAcc_frameBase (v : F32) : (State.setAcc v s).frameBase = s.frameBase := rfl
@[simp] theorem setAcc_frameCount (v : F32) : (State.setAcc v s).frameCount = s.frameCount := rfl
@[simp] theorem setAcc_param (v : F32) : (State.setAcc v s).param = s.param := rfl
@[simp] theorem setAcc_pv (v : F32) : (State.setAcc v s).pv = s.pv := rfl
@[simp] theorem setAcc_blkBase (v : F32) : (State.setAcc v s).blkBase = s.blkBase := rfl
@[simp] theorem setAcc_blkCount (v : F32) : (State.setAcc v s).blkCount = s.blkCount := rfl
@[simp] theorem setAcc_fidx (v : F32) : (State.setAcc v s).fidx = s.fidx := rfl
@[simp] theorem setAcc_framesDone (v : F32) : (State.setAcc v s).framesDone = s.framesDone := rfl
@[simp] theorem setAcc_upc (v : F32) : (State.setAcc v s).upc = s.upc := rfl
@[simp] theorem setAcc_tickOpen (v : F32) : (State.setAcc v s).tickOpen = s.tickOpen := rfl
@[simp] theorem setAcc_acc (v : F32) : (State.setAcc v s).acc = v := rfl
@[simp] theorem setAcc_prev (v : F32) : (State.setAcc v s).prev = s.prev := rfl
@[simp] theorem setAcc_prevTag (v : F32) : (State.setAcc v s).prevTag = s.prevTag := rfl
@[simp] theorem setAcc_latch (v : F32) : (State.setAcc v s).latch = s.latch := rfl
@[simp] theorem setAcc_lfov (v : F32) : (State.setAcc v s).lfov = s.lfov := rfl
@[simp] theorem setAcc_sreg (v : F32) : (State.setAcc v s).sreg = s.sreg := rfl
@[simp] theorem setAcc_sv (v : F32) : (State.setAcc v s).sv = s.sv := rfl
@[simp] theorem setAcc_fl (v : F32) : (State.setAcc v s).fl = s.fl := rfl
@[simp] theorem setAcc_fr (v : F32) : (State.setAcc v s).fr = s.fr := rfl
@[simp] theorem setAcc_len (v : F32) : (State.setAcc v s).len = s.len := rfl
@[simp] theorem setAcc_base (v : F32) : (State.setAcc v s).base = s.base := rfl
@[simp] theorem setAcc_wp (v : F32) : (State.setAcc v s).wp = s.wp := rfl
@[simp] theorem setAcc_ph (v : F32) : (State.setAcc v s).ph = s.ph := rfl
@[simp] theorem setAcc_inc (v : F32) : (State.setAcc v s).inc = s.inc := rfl
@[simp] theorem setAcc_arena (v : F32) : (State.setAcc v s).arena = s.arena := rfl
@[simp] theorem setAcc_mem (v : F32) : (State.setAcc v s).mem = s.mem := rfl
@[simp] theorem setAcc_ucode (v : F32) : (State.setAcc v s).ucode = s.ucode := rfl
@[simp] theorem setAcc_cfg (v : F32) : (State.setAcc v s).cfg = s.cfg := rfl
@[simp] theorem setAcc_moves (v : F32) : (State.setAcc v s).moves = s.moves := rfl
@[simp] theorem setAcc_hostData (v : F32) : (State.setAcc v s).hostData = s.hostData := rfl

/-! `setRead`. -/

@[simp] theorem setRead_inited (line : LineId) (v : F32) : (State.setRead line v s).inited = s.inited := rfl
@[simp] theorem setRead_phase (line : LineId) (v : F32) : (State.setRead line v s).phase = s.phase := rfl
@[simp] theorem setRead_fault (line : LineId) (v : F32) : (State.setRead line v s).fault = s.fault := rfl
@[simp] theorem setRead_fcause (line : LineId) (v : F32) : (State.setRead line v s).fcause = s.fcause := rfl
@[simp] theorem setRead_fupc (line : LineId) (v : F32) : (State.setRead line v s).fupc = s.fupc := rfl
@[simp] theorem setRead_fsrc (line : LineId) (v : F32) : (State.setRead line v s).fsrc = s.fsrc := rfl
@[simp] theorem setRead_fframe (line : LineId) (v : F32) : (State.setRead line v s).fframe = s.fframe := rfl
@[simp] theorem setRead_frameBase (line : LineId) (v : F32) : (State.setRead line v s).frameBase = s.frameBase := rfl
@[simp] theorem setRead_frameCount (line : LineId) (v : F32) : (State.setRead line v s).frameCount = s.frameCount := rfl
@[simp] theorem setRead_param (line : LineId) (v : F32) : (State.setRead line v s).param = s.param := rfl
@[simp] theorem setRead_pv (line : LineId) (v : F32) : (State.setRead line v s).pv = s.pv := rfl
@[simp] theorem setRead_blkBase (line : LineId) (v : F32) : (State.setRead line v s).blkBase = s.blkBase := rfl
@[simp] theorem setRead_blkCount (line : LineId) (v : F32) : (State.setRead line v s).blkCount = s.blkCount := rfl
@[simp] theorem setRead_fidx (line : LineId) (v : F32) : (State.setRead line v s).fidx = s.fidx := rfl
@[simp] theorem setRead_framesDone (line : LineId) (v : F32) : (State.setRead line v s).framesDone = s.framesDone := rfl
@[simp] theorem setRead_upc (line : LineId) (v : F32) : (State.setRead line v s).upc = s.upc := rfl
@[simp] theorem setRead_tickOpen (line : LineId) (v : F32) : (State.setRead line v s).tickOpen = s.tickOpen := rfl
@[simp] theorem setRead_acc (line : LineId) (v : F32) : (State.setRead line v s).acc = s.acc := rfl
@[simp] theorem setRead_prev (line : LineId) (v : F32) : (State.setRead line v s).prev = v := rfl
@[simp] theorem setRead_prevTag (line : LineId) (v : F32) : (State.setRead line v s).prevTag = some line := rfl
@[simp] theorem setRead_latch (line : LineId) (v : F32) : (State.setRead line v s).latch = s.latch := rfl
@[simp] theorem setRead_lfov (line : LineId) (v : F32) : (State.setRead line v s).lfov = s.lfov := rfl
@[simp] theorem setRead_sreg (line : LineId) (v : F32) : (State.setRead line v s).sreg = s.sreg := rfl
@[simp] theorem setRead_sv (line : LineId) (v : F32) : (State.setRead line v s).sv = s.sv := rfl
@[simp] theorem setRead_fl (line : LineId) (v : F32) : (State.setRead line v s).fl = s.fl := rfl
@[simp] theorem setRead_fr (line : LineId) (v : F32) : (State.setRead line v s).fr = s.fr := rfl
@[simp] theorem setRead_len (line : LineId) (v : F32) : (State.setRead line v s).len = s.len := rfl
@[simp] theorem setRead_base (line : LineId) (v : F32) : (State.setRead line v s).base = s.base := rfl
@[simp] theorem setRead_wp (line : LineId) (v : F32) : (State.setRead line v s).wp = s.wp := rfl
@[simp] theorem setRead_ph (line : LineId) (v : F32) : (State.setRead line v s).ph = s.ph := rfl
@[simp] theorem setRead_inc (line : LineId) (v : F32) : (State.setRead line v s).inc = s.inc := rfl
@[simp] theorem setRead_arena (line : LineId) (v : F32) : (State.setRead line v s).arena = s.arena := rfl
@[simp] theorem setRead_mem (line : LineId) (v : F32) : (State.setRead line v s).mem = s.mem := rfl
@[simp] theorem setRead_ucode (line : LineId) (v : F32) : (State.setRead line v s).ucode = s.ucode := rfl
@[simp] theorem setRead_cfg (line : LineId) (v : F32) : (State.setRead line v s).cfg = s.cfg := rfl
@[simp] theorem setRead_moves (line : LineId) (v : F32) : (State.setRead line v s).moves = s.moves := rfl
@[simp] theorem setRead_hostData (line : LineId) (v : F32) : (State.setRead line v s).hostData = s.hostData := rfl

/-! `clearTag`. -/

@[simp] theorem clearTag_inited : (State.clearTag s).inited = s.inited := rfl
@[simp] theorem clearTag_phase : (State.clearTag s).phase = s.phase := rfl
@[simp] theorem clearTag_fault : (State.clearTag s).fault = s.fault := rfl
@[simp] theorem clearTag_fcause : (State.clearTag s).fcause = s.fcause := rfl
@[simp] theorem clearTag_fupc : (State.clearTag s).fupc = s.fupc := rfl
@[simp] theorem clearTag_fsrc : (State.clearTag s).fsrc = s.fsrc := rfl
@[simp] theorem clearTag_fframe : (State.clearTag s).fframe = s.fframe := rfl
@[simp] theorem clearTag_frameBase : (State.clearTag s).frameBase = s.frameBase := rfl
@[simp] theorem clearTag_frameCount : (State.clearTag s).frameCount = s.frameCount := rfl
@[simp] theorem clearTag_param : (State.clearTag s).param = s.param := rfl
@[simp] theorem clearTag_pv : (State.clearTag s).pv = s.pv := rfl
@[simp] theorem clearTag_blkBase : (State.clearTag s).blkBase = s.blkBase := rfl
@[simp] theorem clearTag_blkCount : (State.clearTag s).blkCount = s.blkCount := rfl
@[simp] theorem clearTag_fidx : (State.clearTag s).fidx = s.fidx := rfl
@[simp] theorem clearTag_framesDone : (State.clearTag s).framesDone = s.framesDone := rfl
@[simp] theorem clearTag_upc : (State.clearTag s).upc = s.upc := rfl
@[simp] theorem clearTag_tickOpen : (State.clearTag s).tickOpen = s.tickOpen := rfl
@[simp] theorem clearTag_acc : (State.clearTag s).acc = s.acc := rfl
@[simp] theorem clearTag_prev : (State.clearTag s).prev = s.prev := rfl
@[simp] theorem clearTag_prevTag : (State.clearTag s).prevTag = none := rfl
@[simp] theorem clearTag_latch : (State.clearTag s).latch = s.latch := rfl
@[simp] theorem clearTag_lfov : (State.clearTag s).lfov = s.lfov := rfl
@[simp] theorem clearTag_sreg : (State.clearTag s).sreg = s.sreg := rfl
@[simp] theorem clearTag_sv : (State.clearTag s).sv = s.sv := rfl
@[simp] theorem clearTag_fl : (State.clearTag s).fl = s.fl := rfl
@[simp] theorem clearTag_fr : (State.clearTag s).fr = s.fr := rfl
@[simp] theorem clearTag_len : (State.clearTag s).len = s.len := rfl
@[simp] theorem clearTag_base : (State.clearTag s).base = s.base := rfl
@[simp] theorem clearTag_wp : (State.clearTag s).wp = s.wp := rfl
@[simp] theorem clearTag_ph : (State.clearTag s).ph = s.ph := rfl
@[simp] theorem clearTag_inc : (State.clearTag s).inc = s.inc := rfl
@[simp] theorem clearTag_arena : (State.clearTag s).arena = s.arena := rfl
@[simp] theorem clearTag_mem : (State.clearTag s).mem = s.mem := rfl
@[simp] theorem clearTag_ucode : (State.clearTag s).ucode = s.ucode := rfl
@[simp] theorem clearTag_cfg : (State.clearTag s).cfg = s.cfg := rfl
@[simp] theorem clearTag_moves : (State.clearTag s).moves = s.moves := rfl
@[simp] theorem clearTag_hostData : (State.clearTag s).hostData = s.hostData := rfl

/-! `setScalar`. -/

@[simp] theorem setScalar_inited (r : ScalarReg) (v : F32) : (State.setScalar r v s).inited = s.inited := rfl
@[simp] theorem setScalar_phase (r : ScalarReg) (v : F32) : (State.setScalar r v s).phase = s.phase := rfl
@[simp] theorem setScalar_fault (r : ScalarReg) (v : F32) : (State.setScalar r v s).fault = s.fault := rfl
@[simp] theorem setScalar_fcause (r : ScalarReg) (v : F32) : (State.setScalar r v s).fcause = s.fcause := rfl
@[simp] theorem setScalar_fupc (r : ScalarReg) (v : F32) : (State.setScalar r v s).fupc = s.fupc := rfl
@[simp] theorem setScalar_fsrc (r : ScalarReg) (v : F32) : (State.setScalar r v s).fsrc = s.fsrc := rfl
@[simp] theorem setScalar_fframe (r : ScalarReg) (v : F32) : (State.setScalar r v s).fframe = s.fframe := rfl
@[simp] theorem setScalar_frameBase (r : ScalarReg) (v : F32) : (State.setScalar r v s).frameBase = s.frameBase := rfl
@[simp] theorem setScalar_frameCount (r : ScalarReg) (v : F32) : (State.setScalar r v s).frameCount = s.frameCount := rfl
@[simp] theorem setScalar_param (r : ScalarReg) (v : F32) : (State.setScalar r v s).param = s.param := rfl
@[simp] theorem setScalar_pv (r : ScalarReg) (v : F32) : (State.setScalar r v s).pv = s.pv := rfl
@[simp] theorem setScalar_blkBase (r : ScalarReg) (v : F32) : (State.setScalar r v s).blkBase = s.blkBase := rfl
@[simp] theorem setScalar_blkCount (r : ScalarReg) (v : F32) : (State.setScalar r v s).blkCount = s.blkCount := rfl
@[simp] theorem setScalar_fidx (r : ScalarReg) (v : F32) : (State.setScalar r v s).fidx = s.fidx := rfl
@[simp] theorem setScalar_framesDone (r : ScalarReg) (v : F32) : (State.setScalar r v s).framesDone = s.framesDone := rfl
@[simp] theorem setScalar_upc (r : ScalarReg) (v : F32) : (State.setScalar r v s).upc = s.upc := rfl
@[simp] theorem setScalar_tickOpen (r : ScalarReg) (v : F32) : (State.setScalar r v s).tickOpen = s.tickOpen := rfl
@[simp] theorem setScalar_acc (r : ScalarReg) (v : F32) : (State.setScalar r v s).acc = s.acc := rfl
@[simp] theorem setScalar_prev (r : ScalarReg) (v : F32) : (State.setScalar r v s).prev = s.prev := rfl
@[simp] theorem setScalar_prevTag (r : ScalarReg) (v : F32) : (State.setScalar r v s).prevTag = s.prevTag := rfl
@[simp] theorem setScalar_latch (r : ScalarReg) (v : F32) : (State.setScalar r v s).latch = s.latch := rfl
@[simp] theorem setScalar_lfov (r : ScalarReg) (v : F32) : (State.setScalar r v s).lfov = s.lfov := rfl
@[simp] theorem setScalar_sreg (r : ScalarReg) (v : F32) : (State.setScalar r v s).sreg = s.sreg.set r v := rfl
@[simp] theorem setScalar_sv (r : ScalarReg) (v : F32) : (State.setScalar r v s).sv = s.sv.set r true := rfl
@[simp] theorem setScalar_fl (r : ScalarReg) (v : F32) : (State.setScalar r v s).fl = s.fl := rfl
@[simp] theorem setScalar_fr (r : ScalarReg) (v : F32) : (State.setScalar r v s).fr = s.fr := rfl
@[simp] theorem setScalar_len (r : ScalarReg) (v : F32) : (State.setScalar r v s).len = s.len := rfl
@[simp] theorem setScalar_base (r : ScalarReg) (v : F32) : (State.setScalar r v s).base = s.base := rfl
@[simp] theorem setScalar_wp (r : ScalarReg) (v : F32) : (State.setScalar r v s).wp = s.wp := rfl
@[simp] theorem setScalar_ph (r : ScalarReg) (v : F32) : (State.setScalar r v s).ph = s.ph := rfl
@[simp] theorem setScalar_inc (r : ScalarReg) (v : F32) : (State.setScalar r v s).inc = s.inc := rfl
@[simp] theorem setScalar_arena (r : ScalarReg) (v : F32) : (State.setScalar r v s).arena = s.arena := rfl
@[simp] theorem setScalar_mem (r : ScalarReg) (v : F32) : (State.setScalar r v s).mem = s.mem := rfl
@[simp] theorem setScalar_ucode (r : ScalarReg) (v : F32) : (State.setScalar r v s).ucode = s.ucode := rfl
@[simp] theorem setScalar_cfg (r : ScalarReg) (v : F32) : (State.setScalar r v s).cfg = s.cfg := rfl
@[simp] theorem setScalar_moves (r : ScalarReg) (v : F32) : (State.setScalar r v s).moves = s.moves := rfl
@[simp] theorem setScalar_hostData (r : ScalarReg) (v : F32) : (State.setScalar r v s).hostData = s.hostData := rfl

/-! `setChannel`. -/

@[simp] theorem setChannel_inited (ch : Channel) (v : F32) : (State.setChannel ch v s).inited = s.inited := by cases ch <;> rfl
@[simp] theorem setChannel_phase (ch : Channel) (v : F32) : (State.setChannel ch v s).phase = s.phase := by cases ch <;> rfl
@[simp] theorem setChannel_fault (ch : Channel) (v : F32) : (State.setChannel ch v s).fault = s.fault := by cases ch <;> rfl
@[simp] theorem setChannel_fcause (ch : Channel) (v : F32) : (State.setChannel ch v s).fcause = s.fcause := by cases ch <;> rfl
@[simp] theorem setChannel_fupc (ch : Channel) (v : F32) : (State.setChannel ch v s).fupc = s.fupc := by cases ch <;> rfl
@[simp] theorem setChannel_fsrc (ch : Channel) (v : F32) : (State.setChannel ch v s).fsrc = s.fsrc := by cases ch <;> rfl
@[simp] theorem setChannel_fframe (ch : Channel) (v : F32) : (State.setChannel ch v s).fframe = s.fframe := by cases ch <;> rfl
@[simp] theorem setChannel_frameBase (ch : Channel) (v : F32) : (State.setChannel ch v s).frameBase = s.frameBase := by cases ch <;> rfl
@[simp] theorem setChannel_frameCount (ch : Channel) (v : F32) : (State.setChannel ch v s).frameCount = s.frameCount := by cases ch <;> rfl
@[simp] theorem setChannel_param (ch : Channel) (v : F32) : (State.setChannel ch v s).param = s.param := by cases ch <;> rfl
@[simp] theorem setChannel_pv (ch : Channel) (v : F32) : (State.setChannel ch v s).pv = s.pv := by cases ch <;> rfl
@[simp] theorem setChannel_blkBase (ch : Channel) (v : F32) : (State.setChannel ch v s).blkBase = s.blkBase := by cases ch <;> rfl
@[simp] theorem setChannel_blkCount (ch : Channel) (v : F32) : (State.setChannel ch v s).blkCount = s.blkCount := by cases ch <;> rfl
@[simp] theorem setChannel_fidx (ch : Channel) (v : F32) : (State.setChannel ch v s).fidx = s.fidx := by cases ch <;> rfl
@[simp] theorem setChannel_framesDone (ch : Channel) (v : F32) : (State.setChannel ch v s).framesDone = s.framesDone := by cases ch <;> rfl
@[simp] theorem setChannel_upc (ch : Channel) (v : F32) : (State.setChannel ch v s).upc = s.upc := by cases ch <;> rfl
@[simp] theorem setChannel_tickOpen (ch : Channel) (v : F32) : (State.setChannel ch v s).tickOpen = s.tickOpen := by cases ch <;> rfl
@[simp] theorem setChannel_acc (ch : Channel) (v : F32) : (State.setChannel ch v s).acc = s.acc := by cases ch <;> rfl
@[simp] theorem setChannel_prev (ch : Channel) (v : F32) : (State.setChannel ch v s).prev = s.prev := by cases ch <;> rfl
@[simp] theorem setChannel_prevTag (ch : Channel) (v : F32) : (State.setChannel ch v s).prevTag = s.prevTag := by cases ch <;> rfl
@[simp] theorem setChannel_latch (ch : Channel) (v : F32) : (State.setChannel ch v s).latch = s.latch := by cases ch <;> rfl
@[simp] theorem setChannel_lfov (ch : Channel) (v : F32) : (State.setChannel ch v s).lfov = s.lfov := by cases ch <;> rfl
@[simp] theorem setChannel_sreg (ch : Channel) (v : F32) : (State.setChannel ch v s).sreg = s.sreg := by cases ch <;> rfl
@[simp] theorem setChannel_sv (ch : Channel) (v : F32) : (State.setChannel ch v s).sv = s.sv := by cases ch <;> rfl
@[simp] theorem setChannel_fl (ch : Channel) (v : F32) : (State.setChannel ch v s).fl = if ch = .left then v else s.fl := by cases ch <;> rfl
@[simp] theorem setChannel_fr (ch : Channel) (v : F32) : (State.setChannel ch v s).fr = if ch = .right then v else s.fr := by cases ch <;> rfl
@[simp] theorem setChannel_len (ch : Channel) (v : F32) : (State.setChannel ch v s).len = s.len := by cases ch <;> rfl
@[simp] theorem setChannel_base (ch : Channel) (v : F32) : (State.setChannel ch v s).base = s.base := by cases ch <;> rfl
@[simp] theorem setChannel_wp (ch : Channel) (v : F32) : (State.setChannel ch v s).wp = s.wp := by cases ch <;> rfl
@[simp] theorem setChannel_ph (ch : Channel) (v : F32) : (State.setChannel ch v s).ph = s.ph := by cases ch <;> rfl
@[simp] theorem setChannel_inc (ch : Channel) (v : F32) : (State.setChannel ch v s).inc = s.inc := by cases ch <;> rfl
@[simp] theorem setChannel_arena (ch : Channel) (v : F32) : (State.setChannel ch v s).arena = s.arena := by cases ch <;> rfl
@[simp] theorem setChannel_mem (ch : Channel) (v : F32) : (State.setChannel ch v s).mem = s.mem := by cases ch <;> rfl
@[simp] theorem setChannel_ucode (ch : Channel) (v : F32) : (State.setChannel ch v s).ucode = s.ucode := by cases ch <;> rfl
@[simp] theorem setChannel_cfg (ch : Channel) (v : F32) : (State.setChannel ch v s).cfg = s.cfg := by cases ch <;> rfl
@[simp] theorem setChannel_moves (ch : Channel) (v : F32) : (State.setChannel ch v s).moves = s.moves := by cases ch <;> rfl
@[simp] theorem setChannel_hostData (ch : Channel) (v : F32) : (State.setChannel ch v s).hostData = s.hostData := by cases ch <;> rfl

/-! `raise` (R410): the six fields of the record, and nothing else. -/

@[simp] theorem raise_inited (c : FaultCause) : (State.raise c s).inited = s.inited := by cases c <;> rfl
@[simp] theorem raise_phase (c : FaultCause) : (State.raise c s).phase = .idle := by cases c <;> rfl
@[simp] theorem raise_fault (c : FaultCause) : (State.raise c s).fault = true := by cases c <;> rfl
@[simp] theorem raise_fcause (c : FaultCause) : (State.raise c s).fcause = c.code := by cases c <;> rfl
@[simp] theorem raise_fupc (c : FaultCause) : (State.raise c s).fupc = if c.isHostCommand then 0#9 else BitVec.ofNat 9 s.upc := by cases c <;> rfl
@[simp] theorem raise_fsrc (c : FaultCause) : (State.raise c s).fsrc = c.isHostCommand := by cases c <;> rfl
@[simp] theorem raise_fframe (c : FaultCause) : (State.raise c s).fframe = if c.isHostCommand then 0#32 else s.fidx := by cases c <;> rfl
@[simp] theorem raise_frameBase (c : FaultCause) : (State.raise c s).frameBase = s.frameBase := by cases c <;> rfl
@[simp] theorem raise_frameCount (c : FaultCause) : (State.raise c s).frameCount = s.frameCount := by cases c <;> rfl
@[simp] theorem raise_param (c : FaultCause) : (State.raise c s).param = s.param := by cases c <;> rfl
@[simp] theorem raise_pv (c : FaultCause) : (State.raise c s).pv = s.pv := by cases c <;> rfl
@[simp] theorem raise_blkBase (c : FaultCause) : (State.raise c s).blkBase = s.blkBase := by cases c <;> rfl
@[simp] theorem raise_blkCount (c : FaultCause) : (State.raise c s).blkCount = s.blkCount := by cases c <;> rfl
@[simp] theorem raise_fidx (c : FaultCause) : (State.raise c s).fidx = s.fidx := by cases c <;> rfl
@[simp] theorem raise_framesDone (c : FaultCause) : (State.raise c s).framesDone = s.framesDone := by cases c <;> rfl
@[simp] theorem raise_upc (c : FaultCause) : (State.raise c s).upc = s.upc := by cases c <;> rfl
@[simp] theorem raise_tickOpen (c : FaultCause) : (State.raise c s).tickOpen = s.tickOpen := by cases c <;> rfl
@[simp] theorem raise_acc (c : FaultCause) : (State.raise c s).acc = s.acc := by cases c <;> rfl
@[simp] theorem raise_prev (c : FaultCause) : (State.raise c s).prev = s.prev := by cases c <;> rfl
@[simp] theorem raise_prevTag (c : FaultCause) : (State.raise c s).prevTag = s.prevTag := by cases c <;> rfl
@[simp] theorem raise_latch (c : FaultCause) : (State.raise c s).latch = s.latch := by cases c <;> rfl
@[simp] theorem raise_lfov (c : FaultCause) : (State.raise c s).lfov = s.lfov := by cases c <;> rfl
@[simp] theorem raise_sreg (c : FaultCause) : (State.raise c s).sreg = s.sreg := by cases c <;> rfl
@[simp] theorem raise_sv (c : FaultCause) : (State.raise c s).sv = s.sv := by cases c <;> rfl
@[simp] theorem raise_fl (c : FaultCause) : (State.raise c s).fl = s.fl := by cases c <;> rfl
@[simp] theorem raise_fr (c : FaultCause) : (State.raise c s).fr = s.fr := by cases c <;> rfl
@[simp] theorem raise_len (c : FaultCause) : (State.raise c s).len = s.len := by cases c <;> rfl
@[simp] theorem raise_base (c : FaultCause) : (State.raise c s).base = s.base := by cases c <;> rfl
@[simp] theorem raise_wp (c : FaultCause) : (State.raise c s).wp = s.wp := by cases c <;> rfl
@[simp] theorem raise_ph (c : FaultCause) : (State.raise c s).ph = s.ph := by cases c <;> rfl
@[simp] theorem raise_inc (c : FaultCause) : (State.raise c s).inc = s.inc := by cases c <;> rfl
@[simp] theorem raise_arena (c : FaultCause) : (State.raise c s).arena = s.arena := by cases c <;> rfl
@[simp] theorem raise_mem (c : FaultCause) : (State.raise c s).mem = s.mem := by cases c <;> rfl
@[simp] theorem raise_ucode (c : FaultCause) : (State.raise c s).ucode = s.ucode := by cases c <;> rfl
@[simp] theorem raise_cfg (c : FaultCause) : (State.raise c s).cfg = s.cfg := by cases c <;> rfl
@[simp] theorem raise_moves (c : FaultCause) : (State.raise c s).moves = s.moves := by cases c <;> rfl
@[simp] theorem raise_hostData (c : FaultCause) : (State.raise c s).hostData = s.hostData := by cases c <;> rfl

/-! `openTick`: START's effect. -/

@[simp] theorem openTick_inited : (State.openTick s).inited = s.inited := rfl
@[simp] theorem openTick_phase : (State.openTick s).phase = s.phase := rfl
@[simp] theorem openTick_fault : (State.openTick s).fault = s.fault := rfl
@[simp] theorem openTick_fcause : (State.openTick s).fcause = s.fcause := rfl
@[simp] theorem openTick_fupc : (State.openTick s).fupc = s.fupc := rfl
@[simp] theorem openTick_fsrc : (State.openTick s).fsrc = s.fsrc := rfl
@[simp] theorem openTick_fframe : (State.openTick s).fframe = s.fframe := rfl
@[simp] theorem openTick_frameBase : (State.openTick s).frameBase = s.frameBase := rfl
@[simp] theorem openTick_frameCount : (State.openTick s).frameCount = s.frameCount := rfl
@[simp] theorem openTick_param : (State.openTick s).param = s.param := rfl
@[simp] theorem openTick_pv : (State.openTick s).pv = s.pv := rfl
@[simp] theorem openTick_blkBase : (State.openTick s).blkBase = s.blkBase := rfl
@[simp] theorem openTick_blkCount : (State.openTick s).blkCount = s.blkCount := rfl
@[simp] theorem openTick_fidx : (State.openTick s).fidx = s.fidx := rfl
@[simp] theorem openTick_framesDone : (State.openTick s).framesDone = s.framesDone := rfl
@[simp] theorem openTick_upc : (State.openTick s).upc = s.upc := rfl
@[simp] theorem openTick_tickOpen : (State.openTick s).tickOpen = true := rfl
@[simp] theorem openTick_acc : (State.openTick s).acc = 0#32 := rfl
@[simp] theorem openTick_prev : (State.openTick s).prev = s.prev := rfl
@[simp] theorem openTick_prevTag : (State.openTick s).prevTag = none := rfl
@[simp] theorem openTick_latch : (State.openTick s).latch = s.param := rfl
@[simp] theorem openTick_lfov : (State.openTick s).lfov = Vector.ofFn fun k => Wave.value s.cfg.wave (s.nextPhase k) := rfl
@[simp] theorem openTick_sreg : (State.openTick s).sreg = s.sreg := rfl
@[simp] theorem openTick_sv : (State.openTick s).sv = (s.sv.set 0 false).set 1 false := rfl
@[simp] theorem openTick_fl : (State.openTick s).fl = s.fl := rfl
@[simp] theorem openTick_fr : (State.openTick s).fr = s.fr := rfl
@[simp] theorem openTick_len : (State.openTick s).len = s.len := rfl
@[simp] theorem openTick_base : (State.openTick s).base = s.base := rfl
@[simp] theorem openTick_wp : (State.openTick s).wp = Vector.ofFn fun i => s.nextWp i := rfl
@[simp] theorem openTick_ph : (State.openTick s).ph = Vector.ofFn fun k => s.nextPhase k := rfl
@[simp] theorem openTick_inc : (State.openTick s).inc = s.inc := rfl
@[simp] theorem openTick_arena : (State.openTick s).arena = s.arena := rfl
@[simp] theorem openTick_mem : (State.openTick s).mem = s.mem := rfl
@[simp] theorem openTick_ucode : (State.openTick s).ucode = s.ucode := rfl
@[simp] theorem openTick_cfg : (State.openTick s).cfg = s.cfg := rfl
@[simp] theorem openTick_moves : (State.openTick s).moves = s.moves := rfl
@[simp] theorem openTick_hostData : (State.openTick s).hostData = s.hostData := rfl

/-! `closeFrame`: EOF's effect. -/

@[simp] theorem closeFrame_inited : (State.closeFrame s).inited = s.inited := rfl
@[simp] theorem closeFrame_phase : (State.closeFrame s).phase = if s.fidx + 1#32 < s.blkCount then .fetch else .idle := rfl
@[simp] theorem closeFrame_fault : (State.closeFrame s).fault = s.fault := rfl
@[simp] theorem closeFrame_fcause : (State.closeFrame s).fcause = s.fcause := rfl
@[simp] theorem closeFrame_fupc : (State.closeFrame s).fupc = s.fupc := rfl
@[simp] theorem closeFrame_fsrc : (State.closeFrame s).fsrc = s.fsrc := rfl
@[simp] theorem closeFrame_fframe : (State.closeFrame s).fframe = s.fframe := rfl
@[simp] theorem closeFrame_frameBase : (State.closeFrame s).frameBase = s.frameBase := rfl
@[simp] theorem closeFrame_frameCount : (State.closeFrame s).frameCount = s.frameCount := rfl
@[simp] theorem closeFrame_param : (State.closeFrame s).param = s.param := rfl
@[simp] theorem closeFrame_pv : (State.closeFrame s).pv = s.pv := rfl
@[simp] theorem closeFrame_blkBase : (State.closeFrame s).blkBase = s.blkBase := rfl
@[simp] theorem closeFrame_blkCount : (State.closeFrame s).blkCount = s.blkCount := rfl
@[simp] theorem closeFrame_fidx : (State.closeFrame s).fidx = s.fidx + 1#32 := rfl
@[simp] theorem closeFrame_framesDone : (State.closeFrame s).framesDone = s.framesDone + 1#32 := rfl
@[simp] theorem closeFrame_upc : (State.closeFrame s).upc = s.upc := rfl
@[simp] theorem closeFrame_tickOpen : (State.closeFrame s).tickOpen = false := rfl
@[simp] theorem closeFrame_acc : (State.closeFrame s).acc = s.acc := rfl
@[simp] theorem closeFrame_prev : (State.closeFrame s).prev = s.prev := rfl
@[simp] theorem closeFrame_prevTag : (State.closeFrame s).prevTag = s.prevTag := rfl
@[simp] theorem closeFrame_latch : (State.closeFrame s).latch = s.latch := rfl
@[simp] theorem closeFrame_lfov : (State.closeFrame s).lfov = s.lfov := rfl
@[simp] theorem closeFrame_sreg : (State.closeFrame s).sreg = s.sreg := rfl
@[simp] theorem closeFrame_sv : (State.closeFrame s).sv = s.sv := rfl
@[simp] theorem closeFrame_fl : (State.closeFrame s).fl = s.fl := rfl
@[simp] theorem closeFrame_fr : (State.closeFrame s).fr = s.fr := rfl
@[simp] theorem closeFrame_len : (State.closeFrame s).len = s.len := rfl
@[simp] theorem closeFrame_base : (State.closeFrame s).base = s.base := rfl
@[simp] theorem closeFrame_wp : (State.closeFrame s).wp = s.wp := rfl
@[simp] theorem closeFrame_ph : (State.closeFrame s).ph = s.ph := rfl
@[simp] theorem closeFrame_inc : (State.closeFrame s).inc = s.inc := rfl
@[simp] theorem closeFrame_arena : (State.closeFrame s).arena = s.arena := rfl
@[simp] theorem closeFrame_mem : (State.closeFrame s).mem = writeFrameWord (writeFrameWord s.mem s.frameAddr s.fl) (s.frameAddr + 4) s.fr := rfl
@[simp] theorem closeFrame_ucode : (State.closeFrame s).ucode = s.ucode := rfl
@[simp] theorem closeFrame_cfg : (State.closeFrame s).cfg = s.cfg := rfl
@[simp] theorem closeFrame_moves : (State.closeFrame s).moves = s.moves := rfl
@[simp] theorem closeFrame_hostData : (State.closeFrame s).hostData = s.hostData := rfl

/-! `initialise`: INIT's effect. -/

@[simp] theorem initialise_inited : (State.initialise s).inited = true := rfl
@[simp] theorem initialise_phase : (State.initialise s).phase = s.phase := rfl
@[simp] theorem initialise_fault : (State.initialise s).fault = s.fault := rfl
@[simp] theorem initialise_fcause : (State.initialise s).fcause = s.fcause := rfl
@[simp] theorem initialise_fupc : (State.initialise s).fupc = s.fupc := rfl
@[simp] theorem initialise_fsrc : (State.initialise s).fsrc = s.fsrc := rfl
@[simp] theorem initialise_fframe : (State.initialise s).fframe = s.fframe := rfl
@[simp] theorem initialise_frameBase : (State.initialise s).frameBase = s.frameBase := rfl
@[simp] theorem initialise_frameCount : (State.initialise s).frameCount = s.frameCount := rfl
@[simp] theorem initialise_param : (State.initialise s).param = { s.param with lp := 0x3F333333#32, diffusion := 0x3F200000#32, size := 0x3F800000#32 } := rfl
@[simp] theorem initialise_pv : (State.initialise s).pv = { s.pv with lp := true, diffusion := true, size := true } := rfl
@[simp] theorem initialise_blkBase : (State.initialise s).blkBase = s.blkBase := rfl
@[simp] theorem initialise_blkCount : (State.initialise s).blkCount = s.blkCount := rfl
@[simp] theorem initialise_fidx : (State.initialise s).fidx = s.fidx := rfl
@[simp] theorem initialise_framesDone : (State.initialise s).framesDone = s.framesDone := rfl
@[simp] theorem initialise_upc : (State.initialise s).upc = s.upc := rfl
@[simp] theorem initialise_tickOpen : (State.initialise s).tickOpen = s.tickOpen := rfl
@[simp] theorem initialise_acc : (State.initialise s).acc = s.acc := rfl
@[simp] theorem initialise_prev : (State.initialise s).prev = s.prev := rfl
@[simp] theorem initialise_prevTag : (State.initialise s).prevTag = s.prevTag := rfl
@[simp] theorem initialise_latch : (State.initialise s).latch = s.latch := rfl
@[simp] theorem initialise_lfov : (State.initialise s).lfov = s.lfov := rfl
@[simp] theorem initialise_sreg : (State.initialise s).sreg = (s.sreg.set 2 0#32).set 3 0#32 := rfl
@[simp] theorem initialise_sv : (State.initialise s).sv = (s.sv.set 2 true).set 3 true := rfl
@[simp] theorem initialise_fl : (State.initialise s).fl = s.fl := rfl
@[simp] theorem initialise_fr : (State.initialise s).fr = s.fr := rfl
@[simp] theorem initialise_len : (State.initialise s).len = s.len := rfl
@[simp] theorem initialise_base : (State.initialise s).base = Vector.ofFn fun i => lengthsBefore s.len i := rfl
@[simp] theorem initialise_wp : (State.initialise s).wp = #v[0, 0, 0, 0, 0, 0, 0, 0, 0, 0] := rfl
@[simp] theorem initialise_ph : (State.initialise s).ph = #v[0#32, 0#32] := rfl
@[simp] theorem initialise_inc : (State.initialise s).inc = #v[s.cfg.lfo1Inc, s.cfg.lfo2Inc] := rfl
@[simp] theorem initialise_arena : (State.initialise s).arena = s.arena := rfl
@[simp] theorem initialise_mem : (State.initialise s).mem = s.mem := rfl
@[simp] theorem initialise_ucode : (State.initialise s).ucode = s.ucode := rfl
@[simp] theorem initialise_cfg : (State.initialise s).cfg = s.cfg := rfl
@[simp] theorem initialise_moves : (State.initialise s).moves = s.moves := rfl
@[simp] theorem initialise_hostData : (State.initialise s).hostData = s.hostData := rfl

/-! `startBlock`: PROCESS's effect. -/

@[simp] theorem startBlock_inited : (State.startBlock s).inited = s.inited := rfl
@[simp] theorem startBlock_phase : (State.startBlock s).phase = if s.frameCount = 0#32 then .idle else .fetch := rfl
@[simp] theorem startBlock_fault : (State.startBlock s).fault = s.fault := rfl
@[simp] theorem startBlock_fcause : (State.startBlock s).fcause = s.fcause := rfl
@[simp] theorem startBlock_fupc : (State.startBlock s).fupc = s.fupc := rfl
@[simp] theorem startBlock_fsrc : (State.startBlock s).fsrc = s.fsrc := rfl
@[simp] theorem startBlock_fframe : (State.startBlock s).fframe = s.fframe := rfl
@[simp] theorem startBlock_frameBase : (State.startBlock s).frameBase = s.frameBase := rfl
@[simp] theorem startBlock_frameCount : (State.startBlock s).frameCount = s.frameCount := rfl
@[simp] theorem startBlock_param : (State.startBlock s).param = s.param := rfl
@[simp] theorem startBlock_pv : (State.startBlock s).pv = s.pv := rfl
@[simp] theorem startBlock_blkBase : (State.startBlock s).blkBase = s.frameBase := rfl
@[simp] theorem startBlock_blkCount : (State.startBlock s).blkCount = s.frameCount := rfl
@[simp] theorem startBlock_fidx : (State.startBlock s).fidx = 0#32 := rfl
@[simp] theorem startBlock_framesDone : (State.startBlock s).framesDone = 0#32 := rfl
@[simp] theorem startBlock_upc : (State.startBlock s).upc = s.upc := rfl
@[simp] theorem startBlock_tickOpen : (State.startBlock s).tickOpen = s.tickOpen := rfl
@[simp] theorem startBlock_acc : (State.startBlock s).acc = s.acc := rfl
@[simp] theorem startBlock_prev : (State.startBlock s).prev = s.prev := rfl
@[simp] theorem startBlock_prevTag : (State.startBlock s).prevTag = s.prevTag := rfl
@[simp] theorem startBlock_latch : (State.startBlock s).latch = s.latch := rfl
@[simp] theorem startBlock_lfov : (State.startBlock s).lfov = s.lfov := rfl
@[simp] theorem startBlock_sreg : (State.startBlock s).sreg = s.sreg := rfl
@[simp] theorem startBlock_sv : (State.startBlock s).sv = s.sv := rfl
@[simp] theorem startBlock_fl : (State.startBlock s).fl = s.fl := rfl
@[simp] theorem startBlock_fr : (State.startBlock s).fr = s.fr := rfl
@[simp] theorem startBlock_len : (State.startBlock s).len = s.len := rfl
@[simp] theorem startBlock_base : (State.startBlock s).base = s.base := rfl
@[simp] theorem startBlock_wp : (State.startBlock s).wp = s.wp := rfl
@[simp] theorem startBlock_ph : (State.startBlock s).ph = s.ph := rfl
@[simp] theorem startBlock_inc : (State.startBlock s).inc = s.inc := rfl
@[simp] theorem startBlock_arena : (State.startBlock s).arena = s.arena := rfl
@[simp] theorem startBlock_mem : (State.startBlock s).mem = s.mem := rfl
@[simp] theorem startBlock_ucode : (State.startBlock s).ucode = s.ucode := rfl
@[simp] theorem startBlock_cfg : (State.startBlock s).cfg = s.cfg := rfl
@[simp] theorem startBlock_moves : (State.startBlock s).moves = s.moves := rfl
@[simp] theorem startBlock_hostData : (State.startBlock s).hostData = s.hostData := rfl

end Sys2Proof.Machine
end

