-- ==== Sys2Proof/Laws/Ops.lean ====
section
/-! SUPPORT. One lemma per shared operation: everything it can do. A meaning's answer is taken apart
with these instead of by unfolding the operation. -/

namespace Sys2Proof.Machine

variable {s t : State}

/-- `raise` is the engine record or the host record (R410). -/
theorem raise_cases (c : FaultCause) (s : State) :
    (c.isHostCommand = false ∧ s.raise c =
      { s with fault := true, fcause := c.code, fsrc := false, fupc := BitVec.ofNat 9 s.upc,
               fframe := s.fidx, phase := .idle }) ∨
    (c.isHostCommand = true ∧ s.raise c =
      { s with fault := true, fcause := c.code, fsrc := true, fupc := 0#9, fframe := 0#32, phase := .idle }) := by
  cases c <;> simp [State.raise, FaultCause.isHostCommand]

/-- No cause has code 0 (R401). -/
theorem code_ne_zero (c : FaultCause) : c.code ≠ 0#4 := by cases c <;> decide

/-- Two causes have two codes (R401). -/
theorem code_injective : Function.Injective FaultCause.code := by
  intro a b h
  cases a <;> cases b <;> first | rfl | exact absurd h (by decide)

/-- The tick guard (R202). -/
theorem guarded_next {run : Result} (h : guarded s run = .next t) :
    (s.tickOpen = true ∧ run = .next t) ∨ (s.tickOpen = false ∧ t = s.raise .noTick) := by
  unfold guarded at h
  cases ho : s.tickOpen
  · rw [ho] at h
    exact .inr ⟨rfl, (Host.Outcome.next.inj h).symm⟩
  · rw [ho] at h
    exact .inl ⟨rfl, h⟩

theorem guarded_open {run : Result} (h : s.tickOpen = true) : guarded s run = run := by
  simp [guarded, h]

theorem guarded_closed {run : Result} (h : s.tickOpen = false) :
    guarded s run = .next (s.raise .noTick) := by
  simp [guarded, h]

theorem guarded_fault {run : Result} {f : Fault} (h : guarded s run = .fault f) :
    s.tickOpen = true ∧ run = .fault f := by
  unfold guarded at h
  split at h
  · exact ⟨‹_›, h⟩
  · cases h

/-- Reading a scalar register (R25). -/
theorem withScalar_next {r : ScalarReg} {use : F32 → Result} (h : withScalar r s use = .next t) :
    (s.sv[r] = true ∧ use s.sreg[r] = .next t) ∨
      (s.sv[r] = false ∧ t = s.raise .unwrittenScalar) := by
  unfold withScalar at h
  split at h
  · exact .inl ⟨‹_›, h⟩
  · rename_i hv
    exact .inr ⟨by simpa using hv, (Host.Outcome.next.inj h).symm⟩

theorem withScalar_valid {r : ScalarReg} {use : F32 → Result} (h : s.sv[r] = true) :
    withScalar r s use = use s.sreg[r] := by
  unfold withScalar
  exact if_pos h

theorem withScalar_invalid {r : ScalarReg} {use : F32 → Result} (h : s.sv[r] = false) :
    withScalar r s use = .next (s.raise .unwrittenScalar) := by
  unfold withScalar
  exact if_neg (by simpa using h)

/-- A unit is read where it exists (R72). -/
theorem readUnit_eq {line : LineId} {k : Nat} (h : s.cell line k < arenaUnits) :
    s.readUnit line k = some (s.dec (readCell s.arena (s.cell line k))) := by
  simp [State.readUnit, h]

/-- What reading a line can give, and when (R212, R213). -/
theorem readLine_cases (line : LineId) (off : F32) (s : State) :
    (F32.validOffset off = false ∧ s.readLine line off = .outOfRange) ∨
    (F32.validOffset off = true ∧ F32.isZero (s.sub off (F32.ofNat (F32.floorNat off))) = true ∧
      ((s.len[line] ≤ F32.floorNat off ∧ s.readLine line off = .outOfRange) ∨
       (F32.floorNat off < s.len[line] ∧
        s.readLine line off = s.readExact line (F32.floorNat off)))) ∨
    (F32.validOffset off = true ∧ F32.isZero (s.sub off (F32.ofNat (F32.floorNat off))) = false ∧
      ((s.len[line] ≤ F32.floorNat off + 1 ∧ s.readLine line off = .outOfRange) ∨
       (F32.floorNat off + 1 < s.len[line] ∧ s.readLine line off =
        s.readBetween line (F32.floorNat off) (s.sub off (F32.ofNat (F32.floorNat off)))))) := by
  unfold State.readLine
  cases hv : F32.validOffset off
  · exact .inl ⟨rfl, rfl⟩
  · right
    rw [if_pos rfl]
    dsimp only
    cases hz : F32.isZero (s.sub off (F32.ofNat (F32.floorNat off)))
    · right
      rw [if_neg (by simp)]
      split
      · exact ⟨rfl, rfl, .inr ⟨‹_›, rfl⟩⟩
      · exact ⟨rfl, rfl, .inl ⟨Nat.le_of_not_lt ‹_›, rfl⟩⟩
    · left
      rw [if_pos rfl]
      split
      · exact ⟨rfl, rfl, .inr ⟨‹_›, rfl⟩⟩
      · exact ⟨rfl, rfl, .inl ⟨Nat.le_of_not_lt ‹_›, rfl⟩⟩

/-- What RD and RDM do after the offset (R214). -/
theorem accumulateRead_next {line : LineId} {off g : F32} (h : accumulateRead line off g s = .next t) :
    (∃ v, s.readLine line off = .value v ∧
      t = ((s.setAcc (s.add s.acc (s.mul v g))).setRead line v).advance) ∨
    (s.readLine line off = .outOfRange ∧ t = s.raise .offsetRange) := by
  unfold accumulateRead at h
  split at h
  · exact .inl ⟨_, ‹_›, by simpa using h.symm⟩
  · exact .inr ⟨‹_›, by simpa using h.symm⟩
  · cases h

theorem accumulateRead_value {line : LineId} {off g v : F32} (h : s.readLine line off = .value v) :
    accumulateRead line off g s =
      .next ((s.setAcc (s.add s.acc (s.mul v g))).setRead line v).advance := by
  simp [accumulateRead, h]

theorem accumulateRead_outOfRange {line : LineId} {off g : F32}
    (h : s.readLine line off = .outOfRange) :
    accumulateRead line off g s = .next (s.raise .offsetRange) := by
  simp [accumulateRead, h]

/-- The integer offset of a write (R231). -/
theorem writeOffset_eq_some {line : LineId} {off : F32} {k : Nat} :
    s.writeOffset line off = some k ↔
      F32.validOffset off = true ∧ F32.floorNat off < s.len[line] ∧ k = F32.floorNat off := by
  unfold State.writeOffset
  cases hv : F32.validOffset off
  · simp
  · by_cases hl : F32.floorNat off < s.len[line]
    · rw [if_pos (by simpa using hl)]
      simpa [eq_comm] using fun _ => hl
    · rw [if_neg (by simpa using hl)]
      simp only [reduceCtorEq, true_and, false_iff, not_and]
      exact fun h => absurd h hl

theorem writeOffset_eq_none {line : LineId} {off : F32} :
    s.writeOffset line off = none ↔
      F32.validOffset off = false ∨ s.len[line] ≤ F32.floorNat off := by
  unfold State.writeOffset
  cases hv : F32.validOffset off
  · simp
  · by_cases hl : F32.floorNat off < s.len[line]
    · rw [if_pos (by simpa using hl)]
      simpa using hl
    · rw [if_neg (by simpa using hl)]
      simpa using hl

/-- What WRAP and WR do once the store is decided (R230, R232). -/
theorem storeAcc_next {line : LineId} {k : Nat} {a : F32} (h : storeAcc line k a s = .next t) :
    s.cell line k < arenaUnits ∧
      t = { s with arena := writeCell s.arena (s.cell line k) (s.enc s.acc), acc := a,
                   prevTag := none, upc := s.upc + 1 } := by
  unfold storeAcc at h
  split at h
  · exact ⟨‹_›, (Host.Outcome.next.inj h).symm⟩
  · cases h

theorem storeAcc_inside {line : LineId} {k : Nat} {a : F32} (h : s.cell line k < arenaUnits) :
    storeAcc line k a s = .next
      { s with arena := writeCell s.arena (s.cell line k) (s.enc s.acc), acc := a,
               prevTag := none, upc := s.upc + 1 } := by
  unfold storeAcc
  exact if_pos h

/-- A host access to a byte of frame memory (R92, R310). -/
theorem withFrameByte_cases (a : Nat) (s access : State) :
    (2 ^ 32 ≤ a ∧ withFrameByte a s access = .refused (.hostAddress a)) ∨
    (a < 2 ^ 32 ∧ s.inWindow a = true ∧
      withFrameByte a s access = .refused (.hostAccess (a - s.cfg.regBase))) ∨
    (a < 2 ^ 32 ∧ s.inWindow a = false ∧ s.ownsByte a = true ∧
      withFrameByte a s access = .refused (.frameOwned a)) ∨
    (a < 2 ^ 32 ∧ s.inWindow a = false ∧ s.ownsByte a = false ∧
      withFrameByte a s access = .next access) := by
  unfold withFrameByte
  by_cases h1 : 2 ^ 32 ≤ a
  · exact .inl ⟨h1, if_pos h1⟩
  · rw [if_neg h1]
    have h1' : a < 2 ^ 32 := by omega
    cases h2 : s.inWindow a
    · cases h3 : s.ownsByte a
      · exact .inr (.inr (.inr ⟨h1', rfl, rfl, by simp⟩))
      · exact .inr (.inr (.inl ⟨h1', rfl, rfl, by simp⟩))
    · exact .inr (.inl ⟨h1', rfl, by simp⟩)

/-- The platform's frame window (R82, R300): an empty range, or one the platform allows that is clear of
the register window. -/
theorem frameWindowHolds_iff (p : Params) (base n : Nat) :
    Params.frameWindowHolds p base n = true ↔
      n = 0 ∨ ((match p.frameWindow with
          | .all => true
          | .ranges allowed => allowed.any fun r => decide (r.1 ≤ base) && decide (base + n ≤ r.2)
          | .platform k => Config.platformWindow k base n) = true ∧
        (base + n ≤ p.regBase ∨ p.regBase + 256 ≤ base)) := by
  unfold Params.frameWindowHolds
  simp only [Bool.or_eq_true, Bool.and_eq_true, beq_iff_eq, decide_eq_true_eq] <;> exact Iff.rfl

/-! What each instruction can do when it answers a next state. -/

theorem execStart_next (h : execStart s = .next t) :
    (s.tickOpen = true ∧ t = s.raise .tickOpen) ∨
    (s.tickOpen = false ∧ s.pv.all = false ∧ t = s.raise .paramUnset) ∨
    (s.tickOpen = false ∧ s.pv.all = true ∧ t = s.openTick.advance) := by
  unfold execStart at h
  split at h
  · exact .inl ⟨‹_›, by simpa using h.symm⟩
  · split at h
    · exact .inr (.inr ⟨by simpa using ‹¬ s.tickOpen = true›, ‹_›, by simpa using h.symm⟩)
    · exact .inr (.inl ⟨by simpa using ‹¬ s.tickOpen = true›, by simpa using ‹¬ s.pv.all = true›,
        by simpa using h.symm⟩)

theorem execEof_next (h : execEof s = .next t) :
    (s.tickOpen = false ∧ t = s.raise .noTick) ∨
    (s.tickOpen = true ∧ s.frameAddr + 8 ≤ 2 ^ 32 ∧ t = s.closeFrame) := by
  rcases guarded_next h with ⟨ho, h⟩ | h
  · split at h
    · exact .inr ⟨ho, ‹_›, by simpa using h.symm⟩
    · cases h
  · exact .inl h

/-- The engine micro-step (R274). -/
theorem engineStep_next (h : engineStep s = .next t) :
    ((s.fault = true ∨ s.phase = .idle) ∧ t = s) ∨
    (s.fault = false ∧ s.phase = .fetch ∧ fetchFrame s = .next t) ∨
    (s.fault = false ∧ s.phase = .run ∧ s.ucode.length ≤ s.upc ∧ t = s.raise .upcRange) ∨
    (s.fault = false ∧ s.phase = .run ∧ ∃ w why, s.ucode[s.upc]? = some w ∧
      decode w = .illegal why ∧ t = s.raise .illegal) ∨
    (s.fault = false ∧ s.phase = .run ∧ ∃ w i, s.ucode[s.upc]? = some w ∧ decode w = .ok i ∧
      exec i s = .next t) := by
  unfold engineStep at h
  split at h
  · exact .inl ⟨.inl ‹_›, by simpa using h.symm⟩
  · have hf : s.fault = false := by simpa using ‹¬ s.fault = true›
    split at h
    · exact .inl ⟨.inr ‹_›, by simpa using h.symm⟩
    · exact .inr (.inl ⟨hf, ‹_›, h⟩)
    · rename_i hp
      unfold runWord at h
      split at h
      · rename_i hw
        exact .inr (.inr (.inl ⟨hf, hp, by simpa using hw, by simpa using h.symm⟩))
      · rename_i w hw
        split at h
        · rename_i why hd
          exact .inr (.inr (.inr (.inl ⟨hf, hp, w, why, hw, hd, by simpa using h.symm⟩)))
        · rename_i i hd
          exact .inr (.inr (.inr (.inr ⟨hf, hp, w, i, hw, hd, h⟩)))

/-- The frame fetch (R274). -/
theorem fetchFrame_next (h : fetchFrame s = .next t) :
    s.frameAddr + 8 ≤ 2 ^ 32 ∧
      t = { s with fl := readFrameWord s.mem s.frameAddr, fr := readFrameWord s.mem (s.frameAddr + 4),
                   upc := 0, phase := .run } := by
  unfold fetchFrame at h
  split at h
  · exact ⟨‹_›, by simpa using h.symm⟩
  · cases h

theorem step_of_no_move (h : s.moves = []) : step s = engineStep s := by
  unfold step
  rw [h]

theorem step_of_move {m : Move} {rest : List Move} (h : s.moves = m :: rest) :
    step s = takeMove m { s with moves := rest } := by
  unfold step
  rw [h]

/-- A step is an engine micro-step or the next move (R20). -/
theorem step_cases (s : State) :
    (s.moves = [] ∧ step s = engineStep s) ∨
    ∃ m rest, s.moves = m :: rest ∧ step s = takeMove m { s with moves := rest } := by
  unfold step
  split
  · exact .inl ⟨‹_›, rfl⟩
  · exact .inr ⟨_, _, ‹_›, rfl⟩

end Sys2Proof.Machine
end

