-- ==== Sys2Proof/Machine/Assembly.lean ====
section
/-! DEFINITION. The assembler's spelling of a micro-instruction (spec/30_encoding.md R116). -/

namespace Sys2Proof.Machine

/-- The name of a line (R116). -/
def lineName (line : LineId) : String :=
  #v["ap1", "ap2", "ap3", "ap4", "dap1a", "dap1b", "del1", "dap2a", "dap2b", "del2"][line]

/-- The name of a scalar register (R116). -/
def scalarName (r : ScalarReg) : String := #v["APOUT", "WET", "LP1", "LP2"][r]

/-- The name of a coefficient (R116, R110). -/
def coefName : Coef → String
  | .zero => "0"
  | .one => "1"
  | .two => "2"
  | .kap => "kap"
  | .negKap => "-kap"
  | .krt => "krt"
  | .gain => "gain"
  | .klp => "klp"

/-- The name of an input source (R116). -/
def sourceName : InSrc → String
  | .left => "L"
  | .right => "R"
  | .both => "LR"

/-- The name of a channel (R116). -/
def channelName : Channel → String
  | .left => "L"
  | .right => "R"

/-- The name of an LFO (R116). -/
def lfoName (k : LfoId) : String := if k = 0 then "LFO1" else "LFO2"

/-- The spelling of a format-R offset (R111, R116). -/
def offsetName : Offset → String
  | .imm k => "#" ++ toString k
  | .scaled k => "#" ++ toString k ++ "*sz"
  | .tail => "TAIL*sz"

/-- One micro-instruction as a line of assembly (R116). -/
def assembly : Instr → String
  | .nop => "NOP"
  | .start => "START"
  | .rdin src c => "RDIN " ++ sourceName src ++ ", " ++ coefName c
  | .rd line off c => "RD " ++ lineName line ++ ", " ++ offsetName off ++ ", " ++ coefName c
  | .rdm line base depth lfo c =>
    "RDM " ++ lineName line ++ ", #" ++ toString base ++ "*sz + " ++ toString depth ++ "*" ++ lfoName lfo
      ++ ", " ++ coefName c
  | .wrap line c => "WRAP " ++ lineName line ++ ", " ++ coefName c
  | .wr line off c => "WR " ++ lineName line ++ ", " ++ offsetName off ++ ", " ++ coefName c
  | .wrout r c => "WROUT " ++ scalarName r ++ ", " ++ coefName c
  | .ld r => "LD " ++ scalarName r
  | .lp r c => "LP " ++ scalarName r ++ ", " ++ coefName c
  | .xfade ch r => "XFADE " ++ channelName ch ++ ", " ++ scalarName r
  | .eof => "EOF"

end Sys2Proof.Machine
end

