-- ==== Sys2Proof/Tests/Slice0.lean ====
section
/-! SUPPORT. The model's own tests: ill-formed terms, words written out from spec/30_encoding.md,
vectors of spec/95_test_vectors.md (cited by their names), and for each statement with hypotheses a
state that meets them. -/

namespace Sys2Proof.Tests

open Sys2Proof.Machine Sys2Proof.Claims

/-! ## WellFormed: one ill-formed term per check, refused, and the boundary value before it -/

theorem test_illformed_rd_imm : (Instr.rd 0 (.imm 8192) .one).wf = false := by decide

theorem test_illformed_rd_scaled : (Instr.rd 0 (.scaled 8192) .one).wf = false := by decide

theorem test_illformed_wr_imm : (Instr.wr 0 (.imm 8192) .one).wf = false := by decide

theorem test_illformed_wr_scaled : (Instr.wr 0 (.scaled 8192) .one).wf = false := by decide

theorem test_illformed_rdm_base : (Instr.rdm 0 8192 0 0 .one).wf = false := by decide

theorem test_illformed_rdm_depth : (Instr.rdm 0 0 128 0 .one).wf = false := by decide

theorem test_wellformed_boundaries :
    (Instr.rd 9 (.imm 8191) .klp).wf = true ∧ (Instr.wr 9 (.scaled 8191) .klp).wf = true ∧
    (Instr.rdm 9 8191 127 1 .klp).wf = true := by decide

/-! ## Decoding: words written out bit by bit from the formats of R103 to R109 -/

/-- Format N (R109): op 0, 1, 0xB and 28 zero bits. -/
theorem test_decode_format_N :
    decode 0b0000_0000000000000000000000000000#32 = .ok .nop ∧
    decode 0b0001_0000000000000000000000000000#32 = .ok .start ∧
    decode 0b1011_0000000000000000000000000000#32 = .ok .eof := by decide

/-- Format I (R107): op 2, src, csel, 21 zero bits. -/
theorem test_decode_format_I :
    decode 0b0010_0010_110_000000000000000000000#32 = .ok (.rdin .both .gain) ∧
    decode 0b0010_0000_001_000000000000000000000#32 = .ok (.rdin .left .one) ∧
    decode 0b0010_0001_111_000000000000000000000#32 = .ok (.rdin .right .klp) := by decide

/-- Format R (R103): op 3 or 6, line, csel, omode, 6 zero bits, K. -/
theorem test_decode_format_R :
    decode 0b0011_0000_001_00_000000_0000000000011#32 = .ok (.rd 0 (.imm 3) .one) ∧
    decode 0b0011_1001_101_01_000000_1111111111111#32 = .ok (.rd 9 (.scaled 8191) .krt) ∧
    decode 0b0011_0100_100_10_000000_0000000000000#32 = .ok (.rd 4 .tail .negKap) ∧
    decode 0b0110_0110_010_00_000000_0000000000000#32 = .ok (.wr 6 (.imm 0) .two) ∧
    decode 0b0110_0000_000_01_000000_0000001100100#32 = .ok (.wr 0 (.scaled 100) .zero) ∧
    decode 0b0110_1000_011_10_000000_0000000000000#32 = .ok (.wr 8 .tail .kap) := by decide

/-- Format M (R104): op 4, line, csel, lfo, depth, base. -/
theorem test_decode_format_M :
    decode 0b0100_0000_001_0_0111100_0000000001010#32 = .ok (.rdm 0 10 60 0 .one) ∧
    decode 0b0100_1001_101_1_1100100_1001001001000#32 = .ok (.rdm 9 4680 100 1 .krt) ∧
    decode 0b0100_0000_000_0_0000111_0000000000000#32 = .ok (.rdm 0 0 7 0 .zero) := by decide

/-- Format A (R105): op 5, line, csel, 21 zero bits. -/
theorem test_decode_format_A :
    decode 0b0101_0001_100_000000000000000000000#32 = .ok (.wrap 1 .negKap) ∧
    decode 0b0101_1001_011_000000000000000000000#32 = .ok (.wrap 9 .kap) := by decide

/-- Format S (R106): op 7, 8 or 9, sreg, csel, 21 zero bits. -/
theorem test_decode_format_S :
    decode 0b0111_0001_001_000000000000000000000#32 = .ok (.wrout 1 .one) ∧
    decode 0b1000_0011_000_000000000000000000000#32 = .ok (.ld 3) ∧
    decode 0b1001_0010_111_000000000000000000000#32 = .ok (.lp 2 .klp) := by decide

/-- Format X (R108): op 0xA, ch, sreg, 20 zero bits. -/
theorem test_decode_format_X :
    decode 0b1010_0001_0001_00000000000000000000#32 = .ok (.xfade .right 1) ∧
    decode 0b1010_0000_0011_00000000000000000000#32 = .ok (.xfade .left 3) := by decide

/-- V-E13 to V-E24: every ILLEGAL word of the list, with its reason. -/
theorem test_decode_illegal :
    decode 0x10000001#32 = .illegal .reservedBits ∧ decode 0x23000000#32 = .illegal .source ∧
    decode 0x30780000#32 = .illegal .offsetMode ∧ decode 0x30700001#32 = .illegal .tailWithK ∧
    decode 0x30702000#32 = .illegal .reservedBits ∧ decode 0x3A000000#32 = .illegal .line ∧
    decode 0x52000001#32 = .illegal .reservedBits ∧ decode 0x80200000#32 = .illegal .ldCoef ∧
    decode 0xA0400000#32 = .illegal .scalarReg ∧ decode 0xA2100000#32 = .illegal .channel ∧
    decode 0xC0000000#32 = .illegal .reservedOpcode ∧
    decode 0xFFFFFFFF#32 = .illegal .reservedOpcode ∧
    decode 0x4F000000#32 = .illegal .line := by decide

/-- The encoder gives the words of R118. -/
theorem test_encode_R118 :
    encode (.rdm 0 10 60 0 .one) = 0x4027800A#32 ∧ encode (.wr 0 (.scaled 100) .zero) = 0x60080064#32 ∧
    encode (.rd 0 .tail .kap) = 0x30700000#32 ∧ encode (.wrap 0 .negKap) = 0x50800000#32 ∧
    encode (.lp 2 .klp) = 0x92E00000#32 ∧ encode (.xfade .right 1) = 0xA1100000#32 := by decide

/-- Every word of the reference ROM is legal (R291). -/
theorem test_reference_rom_is_legal :
    referenceRom.length = 34 ∧ ∀ w ∈ referenceRom, ∃ i, decode w = .ok i := by
  refine ⟨by decide, fun w hw => ?_⟩
  have h : (referenceRom.all fun w => match decode w with | .ok _ => true | .illegal _ => false) = true := by
    decide
  have hw := List.all_eq_true.mp h w hw
  cases hd : decode w with
  | ok i => exact ⟨i, rfl⟩
  | illegal why => rw [hd] at hw; cases hw

/-- The table word of a row, and a row's word that is ILLEGAL. -/
theorem test_decodeTableWord :
    decodeTableWord 32 0x30200003 = some (.rd 0 (.imm 3) .one) ∧
    decodeTableWord 32 0xC0000000 = none := by decide

/-- R116, R118: the assembler's spelling. -/
theorem test_assembly :
    assembly (.rdm 9 4680 100 1 .krt) = "RDM del2, #4680*sz + 100*LFO2, krt" ∧
    assembly (.wr 0 (.scaled 100) .zero) = "WR ap1, #100*sz, 0" := by decide

/-- R117: the two words of `AP+ ap1` and `AP- dap1a`. -/
theorem test_pseudo_instructions :
    (apPlus 0).map encode = [0x30700000#32, 0x50800000#32] ∧
    (apMinus 4).map encode = [0x34900000#32, 0x54600000#32] := by decide

/-! ## Arithmetic and storage -/

/-- V-N1 to V-N9 with FTZ off. -/
theorem test_numerics_ieee :
    F32.mul false 0x00800000#32 0x3F000000#32 = 0x00400000#32 ∧
    F32.add false 0x00000001#32 0x00000001#32 = 0x00000002#32 ∧
    F32.mul false 0x80400000#32 0x3F800000#32 = 0x80400000#32 ∧
    F32.add false 0x3F800000#32 0x00000001#32 = 0x3F800000#32 ∧
    F32.add false 0x80000000#32 0x00000000#32 = 0x00000000#32 ∧
    F32.mul false 0x7F800000#32 0x00000000#32 = 0x7FC00000#32 ∧
    F32.add false 0x7F800000#32 0xFF800000#32 = 0x7FC00000#32 ∧
    F32.mul false 0x7F7FFFFF#32 0x40000000#32 = 0x7F800000#32 ∧
    F32.sub false 0x3F800000#32 0x3F333333#32 = 0x3E99999A#32 := by decide

/-- V-N1 to V-N4 with FTZ on. -/
theorem test_numerics_ftz :
    F32.mul true 0x00800000#32 0x3F000000#32 = 0x00000000#32 ∧
    F32.add true 0x00000001#32 0x00000001#32 = 0x00000000#32 ∧
    F32.mul true 0x80400000#32 0x3F800000#32 = 0x80000000#32 ∧
    F32.add true 0x3F800000#32 0x00000001#32 = 0x3F800000#32 := by decide

/-- The table of section 2.2: saturation, truncation, NaN, `-0.0`. -/
theorem test_q15s_encode :
    [0x3F000000#32, 0x3F800000#32, 0x40000000#32, 0x7F800000#32, 0xBF800000#32, 0xBFC00000#32,
      0xFF800000#32, 0x7FC00000#32, 0x80000000#32, 0x3E99999A#32, 0x358637BD#32, 0xB827C5AC#32,
      0x37800000#32].map (encode32 .q15s false) =
    [0x4000#32, 0x7FFF#32, 0x7FFF#32, 0x7FFF#32, 0x8000#32, 0x8000#32, 0x8000#32, 0x0000#32, 0x0000#32,
      0x2666#32, 0x0000#32, 0xFFFF#32, 0x0000#32] := by decide

/-- The same table, decoded: 0.5, 32767/32768, -1.0, 0.29998779296875, -2^-15. -/
theorem test_q15s_decode :
    [0x4000#32, 0x7FFF#32, 0x8000#32, 0x2666#32, 0xFFFF#32].map (decode32 .q15s) =
    [0x3F000000#32, 0x3F7FFE00#32, 0xBF800000#32, 0x3E999800#32, 0xB8000000#32] := by decide

/-- The `WAVE` table of section 2.4. -/
theorem test_wave_reference :
    Wave.value .sine 0x00000000#32 = 0x3F000000#32 ∧ Wave.value .sine 0x20000000#32 = 0x3F5A827A#32 ∧
    Wave.value .sine 0x40000000#32 = 0x3F800000#32 ∧ Wave.value .sine 0x80000000#32 = 0x3F000000#32 ∧
    Wave.value .sine 0xC0000000#32 = 0x00000000#32 ∧ Wave.value .sine 67109#32 = 0x3F000338#32 ∧
    Wave.value .sine 40265#32 = 0x3F0001EE#32 ∧ Wave.value .sine 0xFFFFFFFF#32 = 0x3F000000#32 := by
  decide +kernel

/-- The sine itself, without the imposed laws, already meets its four fixed points (R203). -/
theorem test_sine_fixed_points :
    Wave.sine 0x00000000#32 = 0x3F000000#32 ∧ Wave.sine 0x40000000#32 = 0x3F800000#32 ∧
    Wave.sine 0x80000000#32 = 0x3F000000#32 ∧ Wave.sine 0xC0000000#32 = 0x00000000#32 := by
  decide +kernel

/-! ## States -/

/-- S0 of section 0. -/
def s0 : State :=
  { State.reset with
    inited := true
    base := #v[0, 113, 275, 516, 915, 2568, 4606, 8017, 9930, 11593]
    inc := #v[67109#32, 40265#32]
    sv := #v[false, false, true, true]
    param := ⟨0x3F800000#32, 0x3F800000#32, 0x3F000000#32, 0x3F200000#32, 0x3F333333#32, 0x3F800000#32⟩
    pv := ⟨true, true, true, true, true, true⟩ }

/-- A block of one frame at 0x1000 running, the tick not begun. -/
def running : State :=
  { s0 with frameBase := 0x1000#32, frameCount := 1#32, blkBase := 0x1000#32, blkCount := 1#32, phase := .run }

/-- "Tick open" of section 0, in that block. -/
def tick : State :=
  { running with
    tickOpen := true
    upc := 1
    latch := s0.param
    wp := #v[112, 161, 240, 398, 1652, 2037, 3410, 1912, 1662, 4781]
    ph := #v[67109#32, 40265#32]
    lfov := #v[0x3F000338#32, 0x3F0001EE#32] }

/-- The same under Q15S. -/
def tickQ : State := { tick with cfg := { referenceParams with storeFmt := .q15s } }

/-- `f` of the next state, when there is one. -/
def look {α : Type} (r : Result) (f : State → α) : Option α :=
  match r with
  | .next t => some (f t)
  | .fault _ => none
  | .refused _ => none

/-- The fault code of the next state, when there is one. -/
def faultCode (r : Result) : Option (BitVec 4) := look r State.fcause

/-- S0 is reached by steps 1 to 3 of section 0. -/
theorem test_s0_is_reached :
    hostWrite 0x00 1#32 (hostWrite 0x18 0x3F000000#32 (hostWrite 0x14 0x3F800000#32
      (hostWrite 0x10 0x3F800000#32 State.reset))) = s0 := by decide

/-! ## The instructions (sections 2.4 to 2.9) -/

/-- V-T1. -/
theorem test_nop : look (exec .nop { s0 with upc := 5, acc := 0x3F400000#32 }) (fun t => (t.upc, t.acc)) =
    some (6, 0x3F400000#32) := by decide

/-- V-T2, on everything the vector names. -/
theorem test_start : look (exec .start running) (fun t => (t.wp, t.ph, t.acc, t.prevTag, t.tickOpen)) =
    some (tick.wp, tick.ph, 0#32, none, true) := by decide +kernel

/-- V-T2: the LFO outputs. -/
theorem test_start_lfo : look (exec .start running) (fun t => (t.lfov, t.latch)) =
    some (tick.lfov, s0.param) := by decide +kernel

/-- V-T6: the phase wraps. -/
theorem test_start_phase_wraps :
    State.nextPhase 0 { s0 with ph := #v[0xFFFFFFFF#32, 0#32] } = 67108#32 := by decide

/-- V-T4 and V-T5: TICK_OPEN before PARAM_UNSET. -/
theorem test_start_faults :
    faultCode (exec .start { tick with pv := .fill false }) = some 7#4 ∧
    faultCode (exec .start { s0 with pv := ⟨false, true, true, true, true, true⟩ }) = some 5#4 := by decide

/-- V-I1, V-I2, V-I3: the sources. -/
theorem test_rdin_sources :
    look (exec (.rdin .both .gain) { tick with fl := 0x3F000000#32, fr := 0x3E800000#32 }) State.acc =
      some 0x3F400000#32 ∧
    look (exec (.rdin .left .krt) { tick with fl := 0x3F000000#32, fr := 0x3E800000#32 }) State.acc =
      some 0x3E800000#32 ∧
    look (exec (.rdin .right .krt) { tick with fl := 0x3F000000#32, fr := 0x3E800000#32 }) State.acc =
      some 0x3E000000#32 := by decide

/-- V-I5, V-I6, V-I7: a zero sum, infinities that cancel, a NaN that is not read. -/
theorem test_rdin_corners :
    look (exec (.rdin .both .gain) { tick with fl := 0x80000000#32, fr := 0x80000000#32 }) State.acc =
      some 0x00000000#32 ∧
    look (exec (.rdin .both .gain) { tick with fl := 0x7F800000#32, fr := 0xFF800000#32 }) State.acc =
      some 0x7FC00000#32 ∧
    look (exec (.rdin .right .gain) { tick with fl := 0x7FC00001#32, fr := 0x3F000000#32 }) State.acc =
      some 0x3F000000#32 := by decide

/-- V-R1, V-R2: interpolation, under both formats (`cell(0, 11) = 10`, `cell(0, 12) = 11`). -/
theorem test_rd_interpolates :
    look (exec (.rd 0 .tail .kap) { tick with
          latch := { tick.latch with size := 0x3DCCCCCD#32 }
          arena := [(10, 0x3F000000#32), (11, 0x3F800000#32)] }) (fun t => (t.prev, t.prevTag)) =
      some (0x3F199998#32, some 0) ∧
    look (exec (.rd 0 .tail .kap) { tickQ with
          latch := { tick.latch with size := 0x3DCCCCCD#32 }
          arena := [(10, 0x4000#32), (11, 0x7FFF#32)] }) State.acc = some 0x3EBFFF7E#32 := by decide

/-- V-R4 to V-R11: the range check at its edges. -/
theorem test_rd_range :
    faultCode (exec (.rd 0 (.imm 112) .one) tick) = some 0#4 ∧
    faultCode (exec (.rd 0 (.imm 113) .one) tick) = some 2#4 ∧
    faultCode (exec (.rd 0 .tail .kap) { tick with latch := .fill 0x3F800001#32 }) = some 2#4 ∧
    faultCode (exec (.rd 0 .tail .kap) { tick with latch := .fill 0x3F7FFFFF#32 }) = some 0#4 ∧
    faultCode (exec (.rd 0 .tail .one) { tick with latch := .fill 0x80000000#32 }) = some 0#4 ∧
    faultCode (exec (.rd 0 .tail .one) { tick with latch := .fill 0xBF000000#32 }) = some 2#4 ∧
    faultCode (exec (.rd 0 .tail .one) { tick with latch := .fill 0x7F800000#32 }) = some 2#4 ∧
    faultCode (exec (.rd 0 .tail .one) { tick with latch := .fill 0x7FC00000#32 }) = some 2#4 := by decide

/-- V-M1, V-M2, V-M4: the offset. -/
theorem test_rdm_offset :
    State.offsetM 10 60 0 { tick with lfov := #v[0x3F5A827A#32, 0#32] } = 0x4274DA52#32 ∧
    State.offsetM 4680 100 1 tick = 0x4593D006#32 ∧
    State.offsetM 10 60 0 { tick with latch := .fill 0x40000000#32 } = 0x42480304#32 := by decide

/-- V-M3: an integer offset reads one unit (`cell(9, 4780) = 11593 + 4779`). -/
theorem test_rdm_reads :
    look (exec (.rdm 9 4680 100 1 .krt) { tick with
          lfov := #v[0#32, 0x3F800000#32]
          arena := [(16372, 0x3F800000#32)] }) (fun t => (t.acc, t.prev)) =
      some (0x3F000000#32, 0x3F800000#32) := by decide

/-- V-A1, under both formats (`cell(1, 0) = 113 + 161`). -/
theorem test_wrap :
    look (exec (.wrap 1 .negKap) { tick with
          prevTag := some 1
          prev := 0x3F000000#32
          acc := 0x3F800000#32 }) (fun t => (t.arena, t.acc, t.prevTag)) =
      some ([(274, 0x3F800000#32)], 0xBE000000#32, none) ∧
    look (exec (.wrap 1 .negKap) { tickQ with
          prevTag := some 1
          prev := 0x3F000000#32
          acc := 0x3F800000#32 }) (fun t => (t.arena, t.acc)) =
      some ([(274, 0x7FFF#32)], 0xBE000000#32) := by decide

/-- V-A4, V-A5 and the guard: AP_NO_READ, NO_TICK before it. -/
theorem test_wrap_faults :
    faultCode (exec (.wrap 1 .negKap) { tick with prevTag := some 0 }) = some 3#4 ∧
    faultCode (exec (.wrap 0 .negKap) tick) = some 3#4 ∧
    faultCode (exec (.wrap 0 .negKap) { tick with tickOpen := false }) = some 6#4 := by decide

/-- V-W1 under both formats, V-W2 (`cell(6, 0) = 8016`, `cell(0, 99) = 98`). -/
theorem test_wr :
    look (exec (.wr 6 (.imm 0) .two) { tick with acc := 0x3E99999A#32 }) (fun t => (t.arena, t.acc)) =
      some ([(8016, 0x3E99999A#32)], 0x3F19999A#32) ∧
    look (exec (.wr 6 (.imm 0) .two) { tickQ with acc := 0x3E99999A#32 }) State.arena =
      some [(8016, 0x2666#32)] ∧
    look (exec (.wr 0 (.scaled 100) .one) { tick with
          acc := 0x3F000000#32
          latch := .fill 0x3F7FFFFF#32 }) State.arena = some [(98, 0x3F000000#32)] := by decide

/-- V-W5, V-W6, V-W7: the sign of a cleared accumulator; writes past the line. -/
theorem test_wr_corners :
    look (exec (.wr 0 (.imm 0) .zero) { tick with acc := 0xBE800000#32 }) State.acc =
      some 0x80000000#32 ∧
    faultCode (exec (.wr 0 (.scaled 100) .zero) { tick with latch := .fill 0x40000000#32 }) = some 2#4 ∧
    faultCode (exec (.wr 0 (.scaled 255) .zero) tick) = some 2#4 := by decide

/-- V-O2: stored whole, then scaled. -/
theorem test_wrout :
    look (exec (.wrout 1 .zero) { tick with acc := 0xBE800000#32 })
      (fun t => (t.sreg[1], t.sv[1], t.acc)) = some (0xBE800000#32, true, 0x80000000#32) := by decide

/-- V-O3: a filter state is overwritten. -/
theorem test_wrout_filter :
    look (exec (.wrout 2 .two) { tick with acc := 0x3F000000#32 }) (fun t => (t.sreg[2], t.acc)) =
      some (0x3F000000#32, 0x3F800000#32) := by decide

/-- V-D1, with a NaN payload. -/
theorem test_ld :
    look (exec (.ld 0) { tick with
          sreg := #v[0x7FC12345#32, 0#32, 0#32, 0#32]
          sv := #v[true, false, true, true] }) State.acc = some 0x7FC12345#32 := by decide

/-- V-D2, V-D3: UNWRITTEN_SCALAR, NO_TICK before it. -/
theorem test_ld_faults :
    faultCode (exec (.ld 1) tick) = some 4#4 ∧
    faultCode (exec (.ld 1) { tick with tickOpen := false }) = some 6#4 := by decide

/-- V-P2. -/
theorem test_lp :
    look (exec (.lp 2 .klp) { tick with acc := 0x3F800000#32 }) (fun t => (t.sreg[2], t.acc)) =
      some (0x3E99999A#32, 0x3E99999A#32) := by decide

/-- V-P3, V-P5: the filter holds its state, but for `-0.0`. -/
theorem test_lp_holds :
    look (exec (.lp 2 .one) { tick with
          acc := 0x3F4CCCCD#32
          sreg := #v[0#32, 0#32, 0x3E99999A#32, 0#32] }) State.acc = some 0x3E99999A#32 ∧
    look (exec (.lp 2 .one) { tick with
          acc := 0x3F4CCCCD#32
          sreg := #v[0#32, 0#32, 0x80000000#32, 0#32] }) State.acc = some 0x00000000#32 := by decide

/-- V-X1, and V-X5's operands, where R270 gives `0x3DCCCCD0` by hand: `sub` rounds -10066329.375 to
-10066329 units of 2^-24, and 11744051 - 10066329 = 1677722 (the vector prints another value; entry 25). -/
theorem test_xfade :
    look (exec (.xfade .left 2) { tick with
          fl := 0x3F000000#32
          latch := .fill 0x3F000000#32
          sreg := #v[0#32, 0#32, 0x3FC00000#32, 0#32] }) State.fl = some 0x3F800000#32 ∧
    look (exec (.xfade .left 2) { tick with
          fl := 0x3F333333#32
          latch := .fill 0x3F800000#32
          sreg := #v[0#32, 0#32, 0x3DCCCCCD#32, 0#32] }) State.fl = some 0x3DCCCCD0#32 := by decide

/-- V-X2, V-X4, V-X6: `-0.0`, an infinite input, an unwritten scalar. -/
theorem test_xfade_corners :
    look (exec (.xfade .left 2) { tick with
          fl := 0x80000000#32
          latch := .fill 0#32
          sreg := #v[0#32, 0#32, 0x3F666666#32, 0#32] }) State.fl = some 0x00000000#32 ∧
    look (exec (.xfade .right 2) { tick with
          fr := 0x7F800000#32
          latch := .fill 0#32
          sreg := #v[0#32, 0#32, 0x3F666666#32, 0#32] }) State.fr = some 0x7FC00000#32 ∧
    faultCode (exec (.xfade .left 1) tick) = some 4#4 := by decide

/-- V-F1: the bytes `00 7C 92 BD 00 7C 92 BD` (zero bytes are not listed), the counters, the phase. -/
theorem test_eof :
    look (exec .eof { tick with fl := 0xBD927C00#32, fr := 0xBD927C00#32, blkCount := 2#32 })
      (fun t => (t.mem, t.fidx, t.framesDone, t.tickOpen, t.phase)) =
      some ([(4097, 0x7C#8), (4098, 0x92#8), (4099, 0xBD#8), (4101, 0x7C#8), (4102, 0x92#8),
        (4103, 0xBD#8)], 1#32, 1#32, false, .fetch) := by decide

/-- V-F2, and the last frame of a block. -/
theorem test_eof_ends :
    faultCode (exec .eof { tick with tickOpen := false }) = some 6#4 ∧
    look (exec .eof tick) (fun t => (t.phase, t.busy)) = some (.idle, false) := by decide

/-! ## The sequencer and the host (sections 2.9 and 2.10) -/

/-- The frame `(0.5, 0.25)` of section 2.10 is fetched from its bytes. -/
theorem test_fetch :
    look (step { running with
          phase := .fetch
          upc := 7
          mem := [(0x1003, 0x3F#8), (0x1006, 0x80#8), (0x1007, 0x3E#8)] }) (fun t => (t.fl, t.fr, t.upc, t.phase)) =
      some (0x3F000000#32, 0x3E800000#32, 0, .run) := by decide

/-- V-F3: UPC_RANGE at the end of a two-word ROM. -/
theorem test_upc_range :
    look (step { tick with ucode := [0x10000000#32, 0#32], upc := 2 })
      (fun t => (t.statusWord, t.faultUpcWord, t.tickOpen)) =
      some (0x00003FE5#32, 0x00000002#32, true) := by decide

/-- An ILLEGAL word outside a tick reports ILLEGAL (R402). -/
theorem test_illegal_before_no_tick :
    faultCode (step { running with ucode := [0x30780000#32] }) = some 1#4 := by decide

/-- V-H1, V-H2, and the register INIT loads. -/
theorem test_init :
    State.reset.statusWord = 0#32 ∧ (hostWrite 0 1#32 State.reset).statusWord = 0x00003801#32 ∧
    hostRead 0x34 (hostWrite 0 1#32 State.reset) = 0x00010625#32 := by decide

/-- V-H3, V-H14: REINIT, BUSY before it. -/
theorem test_init_faults :
    (hostWrite 0 1#32 (hostWrite 0 1#32 State.reset)).statusWord = 0x00003895#32 ∧
    (hostWrite 0 1#32 running).statusWord = 0x00003FA5#32 := by decide

/-- V-H4 to V-H8: NOT_INIT, CMD_INVALID, no command, an ignored command. -/
theorem test_ctrl :
    (hostWrite 0 2#32 State.reset).statusWord = 0x00000084#32 ∧
    (hostWrite 0 3#32 State.reset).statusWord = 0x000000F4#32 ∧
    hostWrite 0 0#32 State.reset = State.reset ∧
    (hostWrite 0 1#32 (hostWrite 0 3#32 State.reset)).statusWord = 0x000000F4#32 := by decide

/-- V-H9 to V-H12: FRAME_ALIGN, FRAME_RANGE, the last legal block, an empty block, a running one. -/
theorem test_process :
    (hostWrite 0 2#32 { s0 with frameBase := 0x1002#32, frameCount := 1#32 }).statusWord = 0x00003FB5#32 ∧
    (hostWrite 0 2#32 { s0 with frameBase := 0xFFFFFFF8#32, frameCount := 2#32 }).statusWord =
      0x00003FC5#32 ∧
    (hostWrite 0 2#32 { s0 with frameBase := 0xFFFFFFF8#32, frameCount := 1#32 }).statusWord =
      0x00003F03#32 ∧
    (hostWrite 0 2#32 s0).statusWord = 0x00003F01#32 ∧
    (hostWrite 0 2#32 { s0 with frameCount := 10000#32 }).statusWord = 0x00003F03#32 := by decide

/-- V-H15, V-H16: no getters; a reserved offset. -/
theorem test_window :
    hostRead 0x10 s0 = 0#32 ∧ hostWrite 0x40 0x12345678#32 s0 = s0 ∧ hostRead 0x40 s0 = 0#32 := by decide

/-- Placing a word and stepping runs it, from reset and in a tick. -/
theorem test_withFetchWord :
    look (step (State.reset.withFetchWord 32 0x00000000)) State.upc = some 1 ∧
    faultCode (step (State.reset.withFetchWord 32 0x20C00000)) = some 6#4 ∧
    look (step (tick.withFetchWord 32 0x71000000)) (fun t => t.sv[1]) = some true := by decide

/-! ## Witnesses: a state that meets a statement's hypotheses, at its edges -/

theorem witness_s0_linesPlaced : s0.linesPlaced ∧ tick.linesPlaced := by
  refine ⟨⟨rfl, ?_, ?_⟩, ⟨rfl, ?_, ?_⟩⟩ <;> decide

theorem witness_tick_inv : tick.Inv :=
  { arenaWf := by decide, memWf := by decide, unitsFit := by decide, romSize := by decide
    upcInRom := by decide, lengths := rfl, params := by unfold Params.wf; decide
    placed := fun _ => witness_s0_linesPlaced.2, increments := fun _ => rfl
    filters := by decide, noRecord := by decide, halted := by decide
    running := fun _ => by unfold State.blockRunning; decide
    tick := by decide, waves := by decide }

/-- The engine's turn, with no move listed and with its own move first. -/
theorem witness_engine_turn :
    EngineTurn [] running ∧ EngineTurn [.hostRead 4] { running with moves := [.engine, .hostRead 4] } :=
  ⟨.inl ⟨rfl, rfl⟩, .inr rfl⟩

/-- `CoefficientTable`: a word whose `csel` is 6 (the source's UPC 3), and an instruction with no
coefficient. -/
theorem witness_csel :
    decode 0x22C00000#32 = .ok (.rdin .both .gain) ∧ coefOperand (.rdin .both .gain) = some .gain ∧
    ((0x22C00000#32 : Word).extractLsb' 21 3).toNat = 6 ∧ coefOperand (.ld 0) = none := by decide

/-- `DecodeAfterEncode`, `EncodeAfterDecode`: the largest fields. -/
theorem witness_encoding :
    (Instr.rdm 9 8191 127 1 .klp).wf = true ∧
    decode 0x49FFFFFF#32 = .ok (.rdm 9 8191 127 1 .klp) := by decide

/-- `IllegalWordsAreTheTable`, `TickGuard`: an ILLEGAL word where the engine fetches, no tick open. -/
theorem witness_illegal_word :
    let s := { running with ucode := [0x3A000000#32] }
    s.moves = [] ∧ s.fault = false ∧ s.phase = .run ∧ s.tickOpen = false ∧
    s.ucode[s.upc]? = some 0x3A000000#32 ∧ decode 0x3A000000#32 = .illegal .line := by decide

theorem witness_illegal_table : Illegal113 0x3A000000#32 ∧ ¬ Illegal113 0x39000000#32 := by
  refine ⟨?_, fun h => ?_⟩
  · unfold Illegal113; dsimp only; decide
  · unfold Illegal113 at h; dsimp only at h; revert h; decide

/-- `StepRunsDecodedInstruction`: with no move listed, and with the engine's move listed. -/
theorem witness_step_runs :
    running.fault = false ∧ running.phase = .run ∧ running.ucode[running.upc]? = some 0x10000000#32 ∧
    decode 0x10000000#32 = .ok .start ∧ running.moves = [] ∧
    ({ running with moves := [.engine] } : State).moves = .engine :: [] := by decide

/-- `SequencerSteps`: idle; a fetch of the last frame of the address space; the end of the ROM. -/
theorem witness_sequencer :
    s0.moves = [] ∧ s0.phase = .idle ∧
    (let s := { running with phase := .fetch, blkBase := 0xFFFFFFF8#32 }
     s.fault = false ∧ s.phase = .fetch ∧ s.blkBase.toNat + 8 * s.fidx.toNat + 8 ≤ 2 ^ 32) ∧
    (let s := { running with upc := 34 }
     s.fault = false ∧ s.phase = .run ∧ s.ucode.length ≤ s.upc) := by decide

/-- `StartOpensATick`: each clause; a line at its wrap. -/
theorem witness_start :
    tick.tickOpen = true ∧ running.tickOpen = false ∧ running.pv = ⟨true, true, true, true, true, true⟩ ∧
    running.wp[0] < running.len[0] ∧ tick.wp[0] < tick.len[0] ∧
    (let s := { running with pv := ⟨true, true, true, true, true, false⟩ }
     s.tickOpen = false ∧ s.pv.size = false) := by decide

/-- `RdReadsTheLine` with an integer offset: the last unit of ap1, the first one past it. -/
theorem witness_read_exact :
    let off := State.offsetR 0 .tail tick
    tick.tickOpen = true ∧ F32.isNaN off = false ∧ F32.geZero off = true ∧ F32.isInf off = false ∧
    F32.isZero (F32.sub tick.cfg.ftz off (F32.ofNat (F32.floorNat off))) = true ∧
    F32.floorNat off < tick.len[0] ∧ tick.len[0] ≤ F32.floorNat (F32.ofNat 113) ∧
    F32.isZero (F32.sub false (F32.ofNat 113) (F32.ofNat (F32.floorNat (F32.ofNat 113)))) = true := by
  decide

theorem witness_unit_exists : UnitExists 0 112 tick ∧ UnitExists 0 111 tick ∧ UnitExists 9 4781 tick := by
  unfold UnitExists; decide

/-- `RdReadsTheLine` with a fractional offset: the last pair of ap1 (V-R7), one past it (V-R6). -/
theorem witness_read_between :
    let s := { tick with latch := .fill 0x3F7FFFFF#32 }
    let t := { tick with latch := .fill 0x3F800001#32 }
    let a := State.offsetR 0 .tail s
    let b := State.offsetR 0 .tail t
    F32.geZero a = true ∧ F32.isInf a = false ∧ F32.floorNat a = 111 ∧ 111 + 1 < s.len[0] ∧
    F32.isZero (F32.sub false a (F32.ofNat 111)) = false ∧
    F32.geZero b = true ∧ F32.isInf b = false ∧ F32.floorNat b = 112 ∧ t.len[0] ≤ 112 + 1 ∧
    F32.isZero (F32.sub false b (F32.ofNat 112)) = false := by decide

/-- An invalid offset (V-R9, V-R10, V-R11), and `-0.0`, which is valid. -/
theorem witness_offset_validity :
    F32.geZero 0xBF000000#32 = false ∧ F32.isInf 0x7F800000#32 = true ∧ F32.isNaN 0x7FC00000#32 = true ∧
    F32.geZero 0x80000000#32 = true := by decide

/-- `RdmReadsTheModulatedLine` (V-M3): the edge of del2. -/
theorem witness_rdm :
    let s := { tick with lfov := #v[0#32, 0x3F800000#32] }
    let off := State.offsetM 4680 101 1 s
    s.tickOpen = true ∧ F32.geZero off = true ∧ F32.isInf off = false ∧ F32.floorNat off = 4781 ∧
    4781 < s.len[9] ∧ F32.isZero (F32.sub false off (F32.ofNat 4781)) = true := by decide

/-- `WrapStoresAndFeedsBack`: a matching tag, a different one. -/
theorem witness_wrap :
    ({ tick with prevTag := some 9 } : State).prevTag = some 9 ∧ tick.prevTag ≠ some 9 ∧
    tick.tickOpen = true ∧ running.tickOpen = false := by decide

/-- `WrStoresThenScales`: the last offset of ap1, the first one past it. -/
theorem witness_wr :
    State.writeOffset 0 (State.offsetR 0 (.imm 112) tick) tick = some 112 ∧
    State.writeOffset 0 (State.offsetR 0 (.imm 113) tick) tick = none ∧
    F32.floorNat (State.offsetR 0 (.imm 112) tick) < tick.len[0] ∧
    tick.len[0] ≤ F32.floorNat (State.offsetR 0 (.imm 113) tick) := by decide

/-- `LdLoadsTheScalar`, `LpFiltersTheAccumulator`, `XfadeMixesTheChannel`: a valid scalar register, one
not yet written. -/
theorem witness_scalar : tick.tickOpen = true ∧ tick.sv[3] = true ∧ tick.sv[0] = false := by decide

/-- `EofWritesTheFrameBack`: the last frame of the address space; more frames to do, and none. -/
theorem witness_eof :
    let s := { tick with blkBase := 0xFFFFFFF8#32 }
    Memory.wf s.mem = true ∧ s.tickOpen = true ∧ s.blkBase.toNat + 8 * s.fidx.toNat + 8 ≤ 2 ^ 32 ∧
    ¬ s.fidx + 1#32 < s.blkCount ∧ (0#32 : Word) + 1#32 < 2#32 := by decide

/-- `RegisterInstructionsFrame`: an instruction of the family that answers a next state. -/
theorem witness_register_frame : RegisterOnly (.ld 3) ∧ (look (exec (.ld 3) tick) State.upc).isSome = true :=
  ⟨trivial, by decide⟩

/-- `StoringInstructionsFrame`, `StoreReachesOneSample`, `AllPassPair`: stores and a read that
complete, in a placed state with a canonical arena. -/
theorem witness_store :
    Arena.wf tick.arena = true ∧
    look (exec (.wr 9 .tail .one) tick) State.upc = some (tick.upc + 1) ∧
    look (exec (.wrap 9 .one) { tick with prevTag := some 9 }) State.upc = some (tick.upc + 1) ∧
    look (exec (.rd 9 .tail .kap) tick) State.upc = some (tick.upc + 1) := by decide

/-- `MissingStorageStopsTheModel`: states no run reaches, with the base of ap1 at the arena's end and a
block past the end of the address space. -/
def misplaced (base0 : Nat) : State :=
  { tick with
    base := tick.base.set 0 base0
    wp := tick.wp.set 0 0
    prevTag := some 0
    latch := .fill 0x3F000000#32
    lfov := #v[0x3F000000#32, 0x3F000000#32]
    blkBase := 0xFFFFFFFC#32 }

theorem witness_missing_storage :
    let s := misplaced 16384
    s.tickOpen = true ∧ s.prevTag = some 0 ∧ ¬ s.cell 0 0 < 16384 ∧
    F32.validOffset (s.offsetR 0 (.imm 0)) = true ∧ F32.floorNat (s.offsetR 0 (.imm 0)) = 0 ∧
    0 < s.len[0] ∧ F32.isZero (F32.sub false (s.offsetR 0 (.imm 0)) (F32.ofNat 0)) = true ∧
    2 ^ 32 < s.blkBase.toNat + 8 * s.fidx.toNat + 8 := by decide

/-- The same, read between two units: the first missing, the second missing, for RD and for RDM; and a
frame fetch. -/
theorem witness_missing_pair :
    let s := misplaced 16383
    ¬ (misplaced 16384).cell 0 0 < 16384 ∧ s.cell 0 0 < 16384 ∧ ¬ s.cell 0 1 < 16384 ∧ 0 + 1 < s.len[0] ∧
    F32.validOffset (s.offsetR 0 (.scaled 1)) = true ∧ F32.floorNat (s.offsetR 0 (.scaled 1)) = 0 ∧
    F32.isZero (F32.sub false (s.offsetR 0 (.scaled 1)) (F32.ofNat 0)) = false ∧
    s.offsetM 1 0 0 = s.offsetR 0 (.scaled 1) ∧ s.offsetM 0 1 1 = s.offsetR 0 (.scaled 1) ∧
    ({ s with phase := .fetch } : State).fault = false := by decide

/-- `RomIsNeverWritten`, `EveryStepKeepsTheInvariant`, `NoStepLeavesTheStorage`: a state of the invariant
(`witness_tick_inv`) with a next step, in a block that runs. -/
theorem witness_step_answers : (look (step tick) State.upc).isSome = true := by decide

/-- `FaultsArePrecise`: a step that raises an engine fault, one that raises a host-command fault. -/
theorem witness_fault_steps :
    (let s := { running with ucode := [0x30780000#32] }
     s.fault = false ∧ look (step s) State.fault = some true) ∧
    (let s := { s0 with moves := [.hostWrite 0 3#32] }
     s.fault = false ∧ look (step s) (fun t => (t.fault, t.fsrc)) = some (true, true)) := by decide

/-- `FaultsAreSticky`, `CtrlWriteDecode`: a faulted state, with each of the moves named. -/
theorem witness_faulted :
    let s := s0.raise .cmdInvalid
    s.fault = true ∧ s.moves = [] ∧
    ({ s with moves := [.engine] } : State).moves = .engine :: [] ∧
    ({ s with moves := [.hostWrite 0 1#32] } : State).moves = .hostWrite 0 1#32 :: [] ∧
    (look (step { s with moves := [.hostWrite 0x10 5#32] }) State.fault) = some true := by decide

/-- `InitPartitionsTheArena`: a first INIT, a second, one while a block runs, and lines that do not fit. -/
theorem witness_init :
    running.fault = false ∧ running.phase ≠ .idle ∧
    State.reset.fault = false ∧ State.reset.phase = .idle ∧ State.reset.inited = false ∧
    s0.inited = true ∧
    Finset.univ.sum (fun j : LineId => State.reset.len[j]) ≤ 16384 ∧
    16384 < Finset.univ.sum (fun j : LineId =>
      ({ State.reset with len := lineLengths.set 0 123 } : State).len[j]) := by decide

/-- `ProcessStartsTheBlock`: each clause (V-H4, V-H9, V-H10, V-H11), the last legal block. -/
theorem witness_process :
    running.fault = false ∧ running.phase ≠ .idle ∧
    State.reset.inited = false ∧ s0.inited = true ∧ s0.fault = false ∧ s0.phase = .idle ∧
    (0x1002#32 : Word).toNat % 4 ≠ 0 ∧ (0xFFFFFFF8#32 : Word).toNat % 4 = 0 ∧
    ¬ (0xFFFFFFF8#32 : Word).toNat + 8 * (2#32 : Word).toNat ≤ 2 ^ 32 ∧
    (0xFFFFFFF8#32 : Word).toNat + 8 * (1#32 : Word).toNat ≤ 2 ^ 32 ∧
    Params.frameWindowHolds s0.cfg 0xFFFFFFF8 8 = true ∧ (10000#32 : Word) ≠ 0#32 := by decide

/-- `ProcessStartsTheBlock`, `FrameWindowLaws`: a block whose last byte, and one whose first, lies in the
register window, and the blocks beside it. -/
theorem witness_overlap :
    let p := { referenceParams with regBase := 0x2000 }
    OverlapsRegisterWindow p 0x1FFC 8 ∧ OverlapsRegisterWindow p 0x20FC 8 ∧
    ¬ OverlapsRegisterWindow p 0x1FF8 8 ∧ ¬ OverlapsRegisterWindow p 0x2100 8 ∧
    ({ p with frameWindow := .ranges [(0, 8)] } : Params).frameWindow = .ranges [(0, 8)] ∧
    ({ p with frameWindow := .platform 0 } : Params).frameWindow = .platform 0 := by
  unfold OverlapsRegisterWindow; decide

/-- An empty block completes where no non-empty one is allowed; one that meets the register window is
FRAME_RANGE (R300). -/
theorem test_process_window :
    (let s := { s0 with cfg := { referenceParams with frameWindow := .ranges [] } }
     (hostWrite 0 2#32 s).statusWord = 0x00003F01#32 ∧
     (hostWrite 0 2#32 { s with frameCount := 1#32 }).statusWord = 0x00003FC5#32) ∧
    (let s := { s0 with cfg := { referenceParams with regBase := 0x2000 }, frameCount := 1#32 }
     (hostWrite 0 2#32 { s with frameBase := 0x1FFC#32 }).statusWord = 0x00003FC5#32 ∧
     (hostWrite 0 2#32 { s with frameBase := 0x1FF8#32 }).statusWord = 0x00003F03#32) := by decide

/-- A window that holds a listed range and no other, and never the register window (R82, R300). -/
theorem witness_frame_window :
    let p := { referenceParams with regBase := 0x2000, frameWindow := .ranges [(0x1000, 0x3000)] }
    Params.frameWindowHolds p 0x1000 0x1000 = true ∧ Params.frameWindowHolds p 0x1000 0x1008 = false ∧
    Params.frameWindowHolds p 0x20FC 8 = false ∧ Params.frameWindowHolds p 0x2100 0xF00 = true ∧
    Params.frameWindowHolds p 0x2FFC 8 = false := by decide

/-- `RegisterWindowAccess`: the first and the last offset. -/
theorem witness_window : (0x00 % 4 = 0 ∧ 0x00 ≤ 0xFC) ∧ (0xFC % 4 = 0 ∧ 0xFC ≤ 0xFC) := by decide

/-- `ForbiddenHostMovesAreRefused`, `HostFrameAccess`: the first and last byte of the running block,
and the bytes beside it. -/
theorem witness_frame_bytes :
    running.phase ≠ .idle ∧ running.blkBase.toNat ≤ 0x1000 ∧
    0x1007 < running.blkBase.toNat + 8 * running.blkCount.toNat ∧ 0x1007 < running.cfg.regBase ∧
    running.blkBase.toNat + 8 * running.blkCount.toNat ≤ 0x1008 ∧ 0x0FFF < running.blkBase.toNat ∧
    Memory.wf running.mem = true ∧ 4 % 4 = 0 ∧ 6 % 4 ≠ 0 ∧ 0xFC < 0x100 := by decide

/-- `ForbiddenHostMovesAreRefused`: the first and the last byte of the register window. -/
theorem witness_window_bytes :
    let s := { s0 with cfg := { referenceParams with regBase := 0xFFFFFF00 } }
    s.cfg.regBase ≤ 0xFFFFFF00 ∧ 0xFFFFFFFF < s.cfg.regBase + 256 ∧ 0xFFFFFFFF < 2 ^ 32 := by decide

/-- The values a reset may bring, with an arena of one unit. -/
def draw : Draw :=
  { param := .fill 1#32, latch := .fill 2#32, blkBase := 3#32, blkCount := 4#32, fidx := 5#32
    acc := 6#32, prev := 7#32, lfov := #v[8#32, 9#32], sreg := #v[1#32, 2#32, 3#32, 4#32]
    fl := 1#32, fr := 2#32, base := tick.base, wp := tick.wp, ph := tick.ph
    arena := [(16383, 0x12345678#32)] }

/-- `ResetEvent`: a reset in the middle of a block, with a canonical arena. -/
theorem witness_reset :
    ({ tick with moves := [.reset draw] } : State).moves = .reset draw :: [] ∧
    Arena.wf draw.arena = true ∧ (∀ c ∈ draw.arena, unitOf tick.cfg.storeFmt c.2 = c.2) ∧
    look (step { tick with moves := [.reset draw] }) (fun t => (t.arena, t.phase)) =
      some ([(16383, 0x12345678#32)], .idle) := by decide

/-- `ArithmeticRoundsToNearestEven`: finite operands on each side of the overflow threshold, and the
tie at it, which rounds to infinity. -/
theorem witness_arithmetic :
    F32.isFinite 0x7F7FFFFF#32 = true ∧ F32.isFinite 0x73000000#32 = true ∧
    F32.add false 0x7F7FFFFF#32 0x73000000#32 = 0x7F800000#32 ∧
    F32.add false 0x7F7FFFFF#32 0x72FFFFFF#32 = 0x7F7FFFFF#32 := by decide

/-- `InfiniteAndZeroResults`: infinite operands of one sign and of two, an exact zero sum, and with FTZ a
sum, a difference and a product that underflow. -/
theorem witness_infinite_and_zero :
    F32.isInf 0x7F800000#32 = true ∧ F32.isInf 0xFF800000#32 = true ∧
    F32.isNeg 0x7F800000#32 ≠ F32.isNeg 0xFF800000#32 ∧ F32.isNaN 0xFF800000#32 = false ∧
    F32.isZero (F32.flush true 0x00800000#32) = false ∧
    units 0x3F800000#32 + units 0xBF800000#32 = 0 ∧
    units 0x00800000#32 + units 0x80800001#32 ≠ 0 ∧
    F32.add true 0x00800000#32 0x80800001#32 = 0x80000000#32 ∧
    F32.sub true 0x00800001#32 0x00800000#32 = 0x00000000#32 ∧
    F32.mul false 0x80000001#32 0x3F000000#32 = 0x80000000#32 := by decide

/-- `ExactnessFacts`, `FlushToZero`: a normal, a subnormal, an infinity. -/
theorem witness_classes :
    F32.isNaN 0x3F800000#32 = false ∧ F32.isSubnormal 0x007FFFFF#32 = true ∧
    F32.isSubnormal 0x00800000#32 = false ∧ F32.isInf 0xFF800000#32 = true := by decide

/-- `Q15StorageTruncatesAndSaturates`: a NaN, an infinity, a finite value. -/
theorem witness_q15 :
    F32.isNaN 0x7F800001#32 = true ∧ F32.isInf 0x7F800000#32 = true ∧ F32.isFinite 0x7F7FFFFF#32 = true := by
  decide

/-- `SamplesAgeByOnePerStart`: one START after `running`. -/
theorem witness_ticksLater : ∃ t, TicksLater 1 running t ∧ running.wp[0] < running.len[0] := by
  refine ⟨running.openTick.advance, ⟨running, running, rfl, rfl, rfl, rfl, by decide, rfl, rfl⟩, by decide⟩

/-- `LinesNeverOverlap`, `ImmediateReadTakesOneUnit`: the last offsets. -/
theorem witness_offsets : 4781 < tick.len[9] ∧ 112 < tick.len[0] ∧ tick.len[0] ≤ 113 ∧ 8191 < 8192 := by
  decide

/-- `ScaledAccessesStayInTheLine`: both ends of the size range, the last offset of ap1, a tail. -/
theorem witness_size : SizeInUnit 0x80000000#32 ∧ SizeInUnit 0x3F800000#32 ∧
    (∀ k, (Offset.imm 112 = .imm k ∨ Offset.imm 112 = .scaled k) → k < tick.len[0]) := by
  refine ⟨.inl (by decide), .inr (by decide), fun k hk => ?_⟩
  rcases hk with h | h
  · cases h; decide
  · cases h

/-- `ModulatedReadsStayInTheLine`: `base + depth` at the edge of ap1, the LFO at both ends. -/
theorem witness_modulated :
    Wave.inRange 0x00000000#32 = true ∧ Wave.inRange 0x3F800000#32 = true ∧ 52 + 60 < tick.len[0] := by
  decide

/-- `ZeroAmountKeepsTheSample` (V-X3). -/
theorem witness_zero_amount :
    let s := { tick with latch := .fill 0#32, fl := 0x3E99999A#32, sreg := #v[0#32, 0#32, 0x3F666666#32, 0#32] }
    s.tickOpen = true ∧ s.sv[2] = true ∧ s.cfg.ftz = false ∧ s.latch.amount = 0#32 ∧
    F32.isFinite (s.channel .left) = true ∧ F32.isZero (s.channel .left) = false ∧
    F32.isFinite (F32.sub false s.sreg[2] (s.channel .left)) = true := by decide

/-- `UnitCoefficientHoldsTheFilter` (V-P3). -/
theorem witness_unit_coefficient :
    let s := { tick with acc := 0x3F4CCCCD#32, sreg := #v[0#32, 0#32, 0x3E99999A#32, 0#32] }
    s.tickOpen = true ∧ s.sv[2] = true ∧ s.cfg.ftz = false ∧ s.coef .one = 0x3F800000#32 ∧
    F32.isFinite (F32.sub false s.acc s.sreg[2]) = true ∧ s.sreg[2] ≠ 0x80000000#32 := by decide

end Sys2Proof.Tests
end

section
/-! SUPPORT. Rounding (R10): `round` gives the magnitude nearest to the exact value, ties to even. The exact
value is a rational in units of 2^-149; `unboundedMagnitude` is `roundMagnitude` before overflow. -/

namespace Sys2Proof.F32

/-! Rounding to an integer. -/

/-- `n` is an integer nearest to `v`, the even one at a tie. -/
def NearestInt (v : ℚ) (n : Nat) : Prop := |v - n| ≤ 1 / 2 ∧ (|v - n| = 1 / 2 → n % 2 = 0)

theorem nearestInt_self (n : Nat) : NearestInt n n := by simp [NearestInt]

theorem roundShift_eq_or (m d : Nat) :
    roundShift m d = m / 2 ^ d ∨ roundShift m d = m / 2 ^ d + 1 := by
  unfold roundShift
  dsimp only
  have := Nat.mod_two_eq_zero_or_one (m / 2 ^ d)
  split
  · exact .inr rfl
  · split <;> omega

/-- Halfway between two integers `roundShift` gives the even one. -/
theorem roundShift_even_of_half {m d : Nat}
    (h : 2 * m = 2 * (roundShift m d * 2 ^ d) + 2 ^ d ∨ 2 * m + 2 ^ d = 2 * (roundShift m d * 2 ^ d)) :
    roundShift m d % 2 = 0 := by
  apply roundShift_tie
  have hd := Nat.div_add_mod' m (2 ^ d)
  have hlt := Nat.mod_lt m (Nat.two_pow_pos d)
  rcases roundShift_eq_or m d with hr | hr
  · rw [hr] at h
    omega
  · rw [hr, Nat.add_mul] at h
    omega

theorem nearestInt_roundShift (m d : Nat) : NearestInt ((m : ℚ) / 2 ^ d) (roundShift m d) := by
  obtain ⟨hlo, hhi⟩ := roundShift_near m d
  have heven := roundShift_even_of_half (m := m) (d := d)
  generalize roundShift m d = r at *
  have hpos : (0 : ℚ) < 2 ^ d := by positivity
  have hm : (m : ℚ) = m / 2 ^ d * 2 ^ d := by field_simp
  have hlo : 2 * (m : ℚ) ≤ 2 * (r * 2 ^ d) + 2 ^ d := by exact_mod_cast hlo
  have hhi : 2 * ((r : ℚ) * 2 ^ d) ≤ 2 * m + 2 ^ d := by exact_mod_cast hhi
  refine ⟨abs_le.mpr ⟨?_, ?_⟩, fun h => heven ?_⟩
  · rw [hm] at hhi
    nlinarith
  · rw [hm] at hlo
    nlinarith
  · rcases (abs_eq (by norm_num)).mp h with h | h
    · left
      have : 2 * (m : ℚ) = 2 * (r * 2 ^ d) + 2 ^ d := by
        rw [hm, sub_eq_iff_eq_add.mp h]; ring
      exact_mod_cast this
    · right
      have : 2 * (m : ℚ) + 2 ^ d = 2 * (r * 2 ^ d) := by
        rw [hm, sub_eq_iff_eq_add.mp h]; ring
      exact_mod_cast this

/-! The exponent a result scales as, and its significand before overflow. -/

/-- The value of `m * 2^(x - 150)` in units of 2^-149. -/
def exactUnits (m : Nat) (x : Int) : ℚ := m * 2 ^ (x - 1)

/-- The biased exponent the result scales as, as in `roundMagnitude`. -/
def scaleExp (m : Nat) (x : Int) : Int := max 1 (x + (Nat.log2 m : Int) - 23)

/-- The significand kept at that exponent, as in `roundMagnitude`. -/
def kept (m : Nat) (x : Int) : Nat :=
  if x ≤ scaleExp m x then roundShift m (scaleExp m x - x).toNat
  else m * 2 ^ (x - scaleExp m x).toNat

/-- The significand at that exponent before rounding. -/
def scaled (m : Nat) (x : Int) : ℚ := m * 2 ^ (x - scaleExp m x)

/-- `roundMagnitude` without the overflow to infinity. -/
def unboundedMagnitude (m : Nat) (x : Int) : Nat := (scaleExp m x - 1).toNat * 2 ^ 23 + kept m x

theorem one_le_scaleExp (m : Nat) (x : Int) : 1 ≤ scaleExp m x := le_max_left _ _

theorem exactUnits_eq_scaled (m : Nat) (x : Int) :
    exactUnits m x = scaled m x * 2 ^ (scaleExp m x - 1).toNat := by
  have h : ((scaleExp m x - 1).toNat : Int) = scaleExp m x - 1 :=
    Int.toNat_of_nonneg (by have := one_le_scaleExp m x; omega)
  rw [exactUnits, scaled, ← zpow_natCast, h, mul_assoc, ← zpow_add₀ two_ne_zero]
  congr 2
  omega

theorem nearestInt_kept (m : Nat) (x : Int) : NearestInt (scaled m x) (kept m x) := by
  unfold kept scaled
  generalize scaleExp m x = t
  split
  · have hd : x - t = -((t - x).toNat : Int) := by omega
    rw [hd, zpow_neg, zpow_natCast, ← div_eq_mul_inv]
    exact nearestInt_roundShift ..
  · have hd : x - t = ((x - t).toNat : Int) := by omega
    have hv : (m : ℚ) * 2 ^ (x - t) = (m * 2 ^ (x - t).toNat : Nat) := by
      rw [hd, zpow_natCast]
      push_cast
      rfl
    rw [hv]
    exact nearestInt_self _

/-- The exact value is at most the kept significand and half a unit of the last place. -/
theorem exactUnits_le_half_above (m : Nat) (x : Int) :
    2 * exactUnits m x ≤ (2 * kept m x + 1) * 2 ^ (scaleExp m x - 1).toNat ∧
    (2 * exactUnits m x = (2 * kept m x + 1) * 2 ^ (scaleExp m x - 1).toNat → kept m x % 2 = 0) := by
  obtain ⟨hnear, htie⟩ := nearestInt_kept m x
  have hnear := (abs_le.mp hnear).2
  rw [exactUnits_eq_scaled]
  have hpos : (0 : ℚ) < 2 ^ (scaleExp m x - 1).toNat := by positivity
  refine ⟨by nlinarith, fun h => htie ?_⟩
  have : scaled m x - kept m x = 1 / 2 := le_antisymm hnear (by nlinarith)
  rw [this]
  norm_num

/-- The exact value is at least the kept significand less half a unit of the last place. -/
theorem half_below_le_exactUnits (m : Nat) (x : Int) :
    (2 * kept m x - 1) * 2 ^ (scaleExp m x - 1).toNat ≤ 2 * exactUnits m x ∧
    (2 * exactUnits m x = (2 * kept m x - 1) * 2 ^ (scaleExp m x - 1).toNat → kept m x % 2 = 0) := by
  obtain ⟨hnear, htie⟩ := nearestInt_kept m x
  have hnear := (abs_le.mp hnear).1
  rw [exactUnits_eq_scaled]
  have hpos : (0 : ℚ) < 2 ^ (scaleExp m x - 1).toNat := by positivity
  refine ⟨by nlinarith, fun h => htie ?_⟩
  have : scaled m x - kept m x = -(1 / 2) := le_antisymm (by nlinarith) hnear
  rw [this]
  norm_num

theorem unboundedMagnitude_mod_two (m : Nat) (x : Int) : unboundedMagnitude m x % 2 = kept m x % 2 := by
  unfold unboundedMagnitude
  omega

theorem scaled_lt (m : Nat) (x : Int) : scaled m x < 2 ^ 24 := by
  have hm : (m : ℚ) < 2 ^ (m.log2 + 1) := by exact_mod_cast Nat.lt_log2_self
  have hx : x - scaleExp m x ≤ 23 - m.log2 := by
    have := le_max_right 1 (x + (Nat.log2 m : Int) - 23)
    unfold scaleExp
    omega
  calc scaled m x ≤ m * 2 ^ (23 - (m.log2 : Int)) :=
        mul_le_mul_of_nonneg_left (zpow_le_zpow_right₀ one_le_two hx) (Nat.cast_nonneg _)
    _ < 2 ^ (m.log2 + 1) * 2 ^ (23 - (m.log2 : Int)) :=
        mul_lt_mul_of_pos_right hm (by positivity)
    _ = 2 ^ 24 := by
        rw [← zpow_natCast, ← zpow_add₀ two_ne_zero, ← zpow_natCast]
        congr 1
        push_cast
        omega

theorem le_scaled {m : Nat} {x : Int} (hm : m ≠ 0) (ht : 1 < scaleExp m x) : 2 ^ 23 ≤ scaled m x := by
  have hm : (2 : ℚ) ^ m.log2 ≤ m := by exact_mod_cast Nat.log2_self_le hm
  have hx : x - scaleExp m x = 23 - m.log2 := by
    unfold scaleExp at *
    omega
  calc (2 : ℚ) ^ 23 = 2 ^ m.log2 * 2 ^ (23 - (m.log2 : Int)) := by
        rw [← zpow_natCast, ← zpow_natCast, ← zpow_add₀ two_ne_zero]
        congr 1
        push_cast
        omega
    _ ≤ scaled m x := by
        rw [scaled, hx]
        exact mul_le_mul_of_nonneg_right hm (by positivity)

theorem kept_le (m : Nat) (x : Int) : kept m x ≤ 2 ^ 24 := by
  have hnear := (abs_le.mp (nearestInt_kept m x).1).1
  have hlt := scaled_lt m x
  have : (kept m x : ℚ) < (2 ^ 24 + 1 : Nat) := by push_cast; linarith
  exact Nat.lt_succ_iff.mp (by exact_mod_cast this)

theorem le_kept {m : Nat} {x : Int} (hm : m ≠ 0) (ht : 1 < scaleExp m x) : 2 ^ 23 ≤ kept m x := by
  have hnear := (abs_le.mp (nearestInt_kept m x).1).2
  have hle := le_scaled hm ht
  have : (2 ^ 23 : Nat) < (kept m x + 1 : ℚ) := by push_cast; linarith
  exact Nat.lt_succ_iff.mp (by exact_mod_cast this)

theorem roundMagnitude_eq {m : Nat} (hm : m ≠ 0) (x : Int) :
    roundMagnitude m x = min (unboundedMagnitude m x) 0x7F800000 := by
  have hdef : roundMagnitude m x = if 255 ≤ scaleExp m x then 0x7F800000
      else min (unboundedMagnitude m x) 0x7F800000 := rfl
  rw [hdef]
  split
  · have := le_kept hm (x := x) (by omega)
    unfold unboundedMagnitude
    omega
  · rfl

end Sys2Proof.F32
end

section
/-! SUPPORT. The rounded magnitude lies between the midpoints to its neighbours, so it is the nearest. -/

namespace Sys2Proof.F32

/-- A significand at a scale: where the packed magnitude `e * 2^23 + k` has the value `k * 2^e`. -/
theorem magnitudeUnits_block {e k : Nat} (hk : k ≤ 2 ^ 24) (he : e = 0 ∨ 2 ^ 23 ≤ k) :
    magnitudeUnits (e * 2 ^ 23 + k) = k * 2 ^ e := by
  unfold magnitudeUnits
  rcases Nat.lt_or_ge k (2 ^ 23) with h | h
  · obtain rfl : e = 0 := by omega
    rw [if_pos (by omega)]
    omega
  · rcases Nat.lt_or_eq_of_le hk with h' | rfl
    · have hq : (e * 2 ^ 23 + k) / 2 ^ 23 = e + 1 := by omega
      rw [hq, if_neg (by omega)]
      congr 1
      omega
    · have hq : (e * 2 ^ 23 + 2 ^ 24) / 2 ^ 23 = e + 1 + 1 := by omega
      have hr : (e * 2 ^ 23 + 2 ^ 24) % 2 ^ 23 = 0 := by omega
      rw [hq, hr, if_neg (by omega), Nat.add_sub_cancel, Nat.pow_succ 2 e]
      omega

/-- The next magnitude after a significand at a scale is at least one unit of that scale away. -/
theorem le_magnitudeUnits_succ {e k : Nat} (hk : k ≤ 2 ^ 24) (he : e = 0 ∨ 2 ^ 23 ≤ k) :
    (k + 1) * 2 ^ e ≤ magnitudeUnits (e * 2 ^ 23 + k + 1) := by
  rcases Nat.lt_or_eq_of_le hk with h | rfl
  · rw [Nat.add_assoc, magnitudeUnits_block (Nat.succ_le_of_lt h) (by omega)]
  · have hnext : e * 2 ^ 23 + 2 ^ 24 + 1 = (e + 1) * 2 ^ 23 + (2 ^ 23 + 1) := by omega
    rw [hnext, magnitudeUnits_block (by omega) (by omega), Nat.pow_succ 2 e]
    omega

theorem cast_magnitudeUnits_le {p q : Nat} (h : p ≤ q) : (magnitudeUnits p : ℚ) ≤ magnitudeUnits q := by
  exact_mod_cast magnitudeUnits_strictMono.monotone h

theorem cast_magnitudeUnits_lt {p q : Nat} (h : p < q) : (magnitudeUnits p : ℚ) < magnitudeUnits q := by
  exact_mod_cast magnitudeUnits_strictMono h

/-- The largest finite magnitude and the next, 2^128. -/
theorem midpoint_of_largest :
    (magnitudeUnits 0x7F7FFFFF : ℚ) + magnitudeUnits 0x7F800000 = 2 * ((2 ^ 25 - 1) * 2 ^ 252) := by
  have hlast : magnitudeUnits 0x7F7FFFFF = (2 ^ 24 - 1) * 2 ^ 253 := by decide
  have hnext : magnitudeUnits 0x7F800000 = 2 ^ 23 * 2 ^ 254 := by decide
  rw [hlast, hnext]
  norm_num

/-! A value against the midpoint of two others. -/

section
variable {v a b : ℚ}

theorem abs_sub_lt_of_lt_midpoint (hab : a < b) (h : 2 * v < a + b) : |v - a| < |v - b| :=
  sq_lt_sq.mp (by nlinarith)

theorem abs_sub_lt_of_midpoint_lt (hab : a < b) (h : a + b < 2 * v) : |v - b| < |v - a| :=
  sq_lt_sq.mp (by nlinarith)

theorem abs_sub_eq_of_midpoint (h : 2 * v = a + b) : |v - a| = |v - b| :=
  sq_eq_sq_iff_abs_eq_abs _ _ |>.mp (by linear_combination (b - a) * h)

end

section
variable {m : Nat} {x : Int} (hm : m ≠ 0)
include hm

theorem scale_zero_or_le_kept : (scaleExp m x - 1).toNat = 0 ∨ 2 ^ 23 ≤ kept m x := by
  by_cases ht : 1 < scaleExp m x
  · exact .inr (le_kept hm ht)
  · exact .inl (by omega)

theorem magnitudeUnits_unboundedMagnitude :
    magnitudeUnits (unboundedMagnitude m x) = kept m x * 2 ^ (scaleExp m x - 1).toNat :=
  magnitudeUnits_block (kept_le m x) (scale_zero_or_le_kept hm)

/-- The exact value is at most the midpoint to the next magnitude, and below it from an odd one. -/
theorem exactUnits_le_midpoint :
    2 * exactUnits m x ≤
      magnitudeUnits (unboundedMagnitude m x) + magnitudeUnits (unboundedMagnitude m x + 1) ∧
    (2 * exactUnits m x =
      magnitudeUnits (unboundedMagnitude m x) + magnitudeUnits (unboundedMagnitude m x + 1) →
      unboundedMagnitude m x % 2 = 0) := by
  obtain ⟨hle, htie⟩ := exactUnits_le_half_above m x
  have hnext : ((kept m x + 1 : ℚ)) * 2 ^ (scaleExp m x - 1).toNat ≤
      magnitudeUnits (unboundedMagnitude m x + 1) := by
    exact_mod_cast le_magnitudeUnits_succ (kept_le m x) (scale_zero_or_le_kept hm)
  rw [magnitudeUnits_unboundedMagnitude hm, unboundedMagnitude_mod_two]
  push_cast
  exact ⟨by linarith, fun h => htie (by linarith)⟩

/-- At the lowest significand of a scale the exact value is not below the rounded one. -/
theorem lowest_le_exactUnits (hk : kept m x = 2 ^ 23) (ht : 1 < scaleExp m x) :
    magnitudeUnits (unboundedMagnitude m x) ≤ exactUnits m x := by
  rw [magnitudeUnits_unboundedMagnitude hm, hk, exactUnits_eq_scaled]
  push_cast
  exact mul_le_mul_of_nonneg_right (le_scaled hm ht) (by positivity)

/-- Above the lowest significand of a scale the magnitude before is one unit of that scale away. -/
theorem magnitudeUnits_pred (hlow : ¬ (kept m x = 2 ^ 23 ∧ 1 < scaleExp m x)) {q : Nat}
    (hq : q + 1 = unboundedMagnitude m x) :
    (magnitudeUnits q : ℚ) = (kept m x - 1) * 2 ^ (scaleExp m x - 1).toNat := by
  have hle := kept_le m x
  have hone := one_le_scaleExp m x
  have hcase := scale_zero_or_le_kept (x := x) hm
  unfold unboundedMagnitude at hq
  obtain ⟨k, hk⟩ : ∃ k, kept m x = k + 1 := ⟨kept m x - 1, by omega⟩
  have hq : q = (scaleExp m x - 1).toNat * 2 ^ 23 + k := by omega
  rw [hq, magnitudeUnits_block (by omega) (by omega), hk]
  push_cast
  ring

/-- The exact value is at least the midpoint to the magnitude before, and above it from an odd one. -/
theorem midpoint_le_exactUnits {q : Nat} (hq : q + 1 = unboundedMagnitude m x) :
    magnitudeUnits q + magnitudeUnits (q + 1) ≤ 2 * exactUnits m x ∧
    (2 * exactUnits m x = magnitudeUnits q + magnitudeUnits (q + 1) → (q + 1) % 2 = 0) := by
  rw [hq]
  by_cases hlow : kept m x = 2 ^ 23 ∧ 1 < scaleExp m x
  · have hle := lowest_le_exactUnits hm hlow.1 hlow.2
    have hlt := cast_magnitudeUnits_lt (Nat.lt_of_succ_le hq.le)
    exact ⟨by linarith, fun h => absurd h (by linarith)⟩
  · obtain ⟨hge, htie⟩ := half_below_le_exactUnits m x
    rw [magnitudeUnits_pred hm hlow hq, magnitudeUnits_unboundedMagnitude hm, unboundedMagnitude_mod_two]
    push_cast
    exact ⟨by linarith, fun h => htie (by linarith)⟩

/-- No magnitude is nearer to the exact value, and at a tie the rounded one is even. -/
theorem unboundedMagnitude_nearest (q : Nat) :
    |exactUnits m x - magnitudeUnits (unboundedMagnitude m x)| < |exactUnits m x - magnitudeUnits q| ∨
    (|exactUnits m x - magnitudeUnits (unboundedMagnitude m x)| = |exactUnits m x - magnitudeUnits q| ∧
      (q = unboundedMagnitude m x ∨ unboundedMagnitude m x % 2 = 0)) := by
  obtain ⟨hup, hupTie⟩ := exactUnits_le_midpoint (x := x) hm
  have hdown := fun r => midpoint_le_exactUnits (x := x) (q := r) hm
  generalize unboundedMagnitude m x = p at *
  generalize exactUnits m x = v at *
  rcases Nat.lt_trichotomy q p with h | rfl | h
  · obtain ⟨r, rfl⟩ : ∃ r, p = r + 1 := ⟨p - 1, by omega⟩
    obtain ⟨hlo, hloTie⟩ := hdown r rfl
    have hqr := cast_magnitudeUnits_le (Nat.le_of_lt_succ h)
    rcases lt_or_eq_of_le (show magnitudeUnits q + magnitudeUnits (r + 1) ≤ 2 * v by linarith)
      with hv | hv
    · exact .inl (abs_sub_lt_of_midpoint_lt (cast_magnitudeUnits_lt h) hv)
    · exact .inr ⟨(abs_sub_eq_of_midpoint hv.symm).symm, .inr (hloTie (by linarith))⟩
  · exact .inr ⟨rfl, .inl rfl⟩
  · have hpq := cast_magnitudeUnits_le (Nat.succ_le_of_lt h)
    rcases lt_or_eq_of_le (show 2 * v ≤ magnitudeUnits p + magnitudeUnits q by linarith)
      with hv | hv
    · exact .inl (abs_sub_lt_of_lt_midpoint (cast_magnitudeUnits_lt h) hv)
    · exact .inr ⟨abs_sub_eq_of_midpoint hv, .inr (hupTie (by linarith))⟩

/-- A value that is a magnitude's is rounded to that magnitude. -/
theorem unboundedMagnitude_of_exact {q : Nat} (h : exactUnits m x = magnitudeUnits q) :
    unboundedMagnitude m x = q := by
  have hle : |exactUnits m x - magnitudeUnits (unboundedMagnitude m x)| ≤ 0 := by
    have hq : |exactUnits m x - magnitudeUnits q| = 0 := by rw [h, sub_self, abs_zero]
    rcases unboundedMagnitude_nearest (x := x) hm q with hlt | ⟨heq, -⟩
    · exact (hlt.trans_eq hq).le
    · exact (heq.trans hq).le
  have heq : (magnitudeUnits (unboundedMagnitude m x) : ℚ) = magnitudeUnits q := by
    rw [← h]
    exact (sub_eq_zero.mp (abs_nonpos_iff.mp hle)).symm
  exact magnitudeUnits_strictMono.injective (by exact_mod_cast heq)

/-- The result overflows from the midpoint between the largest finite value and 2^128 on. -/
theorem unboundedMagnitude_lt_iff :
    unboundedMagnitude m x < 0x7F800000 ↔ exactUnits m x < (2 ^ 25 - 1) * 2 ^ 252 := by
  have hmax := midpoint_of_largest
  constructor
  · intro h
    obtain ⟨hup, hupTie⟩ := exactUnits_le_midpoint (x := x) hm
    have hnext := cast_magnitudeUnits_le (show unboundedMagnitude m x + 1 ≤ 0x7F800000 by omega)
    rcases Nat.lt_or_eq_of_le (Nat.le_of_lt_succ h) with hlt | hlast
    · have hlt := cast_magnitudeUnits_lt hlt
      linarith
    · have hne := mt hupTie (by omega)
      have := lt_of_le_of_ne hup hne
      rw [hlast] at this
      linarith
  · intro h
    by_contra hge
    obtain ⟨q, hq⟩ : ∃ q, q + 1 = unboundedMagnitude m x := ⟨unboundedMagnitude m x - 1, by omega⟩
    have hmid := (midpoint_le_exactUnits hm hq).1
    have h1 := cast_magnitudeUnits_le (show 0x7F7FFFFF ≤ q by omega)
    have h2 := cast_magnitudeUnits_le (show 0x7F800000 ≤ q + 1 by omega)
    linarith

end

end Sys2Proof.F32
end

section
/-! SUPPORT. Signed values: what `round` gives for a value, and that it meets `Rounded`. -/

namespace Sys2Proof.F32

open Sys2Proof.Claims

/-! The value of a pattern. -/

/-- `-1` for a set sign bit, `1` for a clear one. -/
def signFactor (n : Bool) : Int := if n then -1 else 1

theorem signFactor_bne (n k : Bool) : signFactor (n != k) = signFactor n * signFactor k := by
  cases n <;> cases k <;> rfl

theorem signFactor_ne_zero (n : Bool) : signFactor n ≠ 0 := by cases n <;> decide

theorem eq_signFactor_mul_natAbs (z : Int) : z = signFactor (decide (z < 0)) * z.natAbs := by
  unfold signFactor
  split
  all_goals simp_all only [decide_eq_true_eq]; omega

theorem signedMant_eq (a : F32) : signedMant a = signFactor (isNeg a) * mant a := by
  unfold signedMant signFactor
  split <;> simp

theorem units_eq (a : F32) : units a = signFactor (isNeg a) * magnitudeUnits (a.toNat % 2 ^ 31) := by
  rw [units, signedMant_eq, ← mant_mul_two_pow]
  push_cast
  ring

theorem units_neg (a : F32) : units (neg a) = - units a := by
  rw [units, units, signedMant_neg, bexp_neg, Int.neg_mul]

@[simp] theorem units_zero (n : Bool) : units (zero n) = 0 := by cases n <;> decide

theorem mant_eq_zero_iff (a : F32) : mant a = 0 ↔ units a = 0 := by
  rw [units, signedMant_eq]
  simp [signFactor_ne_zero]

theorem toNat_pack_mod {n : Bool} {p : Nat} (h : p < 2 ^ 31) : (pack n p).toNat % 2 ^ 31 = p := by
  rw [toNat_pack h]
  cases n <;> simp <;> omega

theorem toNat_pack_mod_two {n : Bool} {p : Nat} (h : p < 2 ^ 31) : (pack n p).toNat % 2 = p % 2 := by
  rw [toNat_pack h]
  cases n <;> simp; omega

theorem units_pack {n : Bool} {p : Nat} (h : p < 2 ^ 31) :
    units (pack n p) = signFactor n * magnitudeUnits p := by
  rw [units_eq, isNeg_pack h, toNat_pack_mod h]

theorem isFinite_iff_magnitude (a : F32) : isFinite a = true ↔ a.toNat % 2 ^ 31 < 0x7F800000 := by
  have := magnitude_eq a
  have := fracField_lt a
  have := expField_lt a
  simp only [isFinite, bne_iff_ne]
  omega

/-! What `round` answers for a value. -/

theorem round_of_lt {m : Nat} {x : Int} (hm : m ≠ 0) (n : Bool)
    (h : unboundedMagnitude m x < 0x7F800000) : round n m x = pack n (unboundedMagnitude m x) := by
  rw [round, if_neg hm, roundMagnitude_eq hm, Nat.min_eq_left h.le]

theorem round_of_le {m : Nat} {x : Int} (hm : m ≠ 0) (n : Bool)
    (h : 0x7F800000 ≤ unboundedMagnitude m x) : round n m x = inf n := by
  rw [round, if_neg hm, roundMagnitude_eq hm, Nat.min_eq_right h, inf]

theorem exactUnits_pos {m : Nat} (hm : m ≠ 0) (x : Int) : 0 < exactUnits m x := by
  have : (0 : ℚ) < m := by exact_mod_cast Nat.pos_of_ne_zero hm
  unfold exactUnits
  positivity

/-- `r` is what `round` answers for the nonzero value `v`, in units of 2^-149. -/
def IsRoundOf (v : ℚ) (r : F32) : Prop :=
  ∃ (n : Bool) (m : Nat) (x : Int), m ≠ 0 ∧ v = signFactor n * exactUnits m x ∧ r = round n m x

theorem IsRoundOf.isNeg {v : ℚ} {r : F32} (h : IsRoundOf v r) : isNeg r = decide (v < 0) := by
  obtain ⟨n, m, x, hm, rfl, rfl⟩ := h
  have := exactUnits_pos hm x
  rw [isNeg_round]
  cases n <;> simp [signFactor, this, this.le]

theorem IsRoundOf.isNaN {v : ℚ} {r : F32} (h : IsRoundOf v r) : isNaN r = false := by
  obtain ⟨n, m, x, -, -, rfl⟩ := h
  exact isNaN_round n m x

/-- A sign and a positive value are read off their product. -/
theorem signFactor_mul_inj {n k : Bool} {v w : ℚ} (hv : 0 < v) (hw : 0 ≤ w)
    (h : signFactor n * v = signFactor k * w) :
    n = k ∧ v = w := by
  cases n <;> cases k <;> simp [signFactor] at h ⊢ <;> linarith

/-- A value that is a finite pattern's is rounded to that pattern. -/
theorem IsRoundOf.eq_of_units {r a : F32} (h : IsRoundOf (units a) r) (ha : isFinite a = true) :
    r = a := by
  obtain ⟨n, m, x, hm, hv, rfl⟩ := h
  have hmag := (isFinite_iff_magnitude a).mp ha
  have hv : (signFactor n : ℚ) * exactUnits m x =
      signFactor (F32.isNeg a) * magnitudeUnits (a.toNat % 2 ^ 31) := by
    rw [← hv, units_eq a]
    push_cast
    rfl
  obtain ⟨hn, hval⟩ := signFactor_mul_inj (exactUnits_pos hm x) (Nat.cast_nonneg _) hv
  have hp := unboundedMagnitude_of_exact hm hval
  rw [round_of_lt hm n (by rwa [hp]), hp, hn]
  exact (eq_pack a).symm

/-- The distance between two signed values. -/
theorem abs_signFactor_mul_sub {v w : ℚ} (hv : 0 ≤ v) (hw : 0 ≤ w) (n k : Bool) :
    |signFactor n * v - signFactor k * w| = if k = n then |v - w| else v + w := by
  cases n <;> cases k <;>
    simp only [signFactor, if_true, if_false, Bool.false_eq_true, Bool.true_eq_false] <;> push_cast
  · ring_nf
  · rw [abs_of_nonneg] <;> linarith
  · rw [abs_of_nonpos] <;> linarith
  · rw [abs_sub_comm v w]
    ring_nf

/-- No signed magnitude is nearer to a signed value than the rounded one with the value's sign. -/
theorem unboundedMagnitude_nearest_signed {m : Nat} (hm : m ≠ 0) (x : Int) (n k : Bool) (q : Nat) :
    |signFactor n * exactUnits m x - signFactor n * magnitudeUnits (unboundedMagnitude m x)| <
      |signFactor n * exactUnits m x - signFactor k * magnitudeUnits q| ∨
    (|signFactor n * exactUnits m x - signFactor n * magnitudeUnits (unboundedMagnitude m x)| =
      |signFactor n * exactUnits m x - signFactor k * magnitudeUnits q| ∧
      (signFactor k * magnitudeUnits q = signFactor n * magnitudeUnits (unboundedMagnitude m x) ∨
        unboundedMagnitude m x % 2 = 0)) := by
  have hpos := exactUnits_pos hm x
  have hdist := fun k q => abs_signFactor_mul_sub hpos.le (Nat.cast_nonneg (magnitudeUnits q)) n k
  rw [hdist n, hdist k, if_pos rfl]
  by_cases hk : k = n
  · rw [if_pos hk, hk]
    exact (unboundedMagnitude_nearest hm q).imp_right fun ⟨heq, hq⟩ =>
      ⟨heq, hq.imp_left fun hq => by rw [hq]⟩
  · -- a magnitude of the other sign is no nearer than zero
    rw [if_neg hk]
    have hzero : magnitudeUnits 0 = 0 := rfl
    have hq : (0 : ℚ) ≤ magnitudeUnits q := Nat.cast_nonneg _
    have hnear := unboundedMagnitude_nearest (x := x) hm 0
    rw [hzero, Nat.cast_zero, sub_zero, abs_of_pos hpos] at hnear
    rcases hnear with hlt | ⟨heq, hp⟩
    · exact .inl (by linarith)
    · rcases hq.lt_or_eq with hlt | hq
      · exact .inl (by linarith)
      · refine .inr ⟨by linarith, hp.imp_left fun hp => ?_⟩
        have hq : magnitudeUnits q = 0 := by exact_mod_cast hq.symm
        rw [← hp, hzero, hq]
        simp

section
variable {exact scale : Int} (hs : 0 < scale)
include hs

/-- A distance to the exact result, taken at the value it scales from. -/
theorem distance_eq (c : F32) : ((|exact - scale * units c| : Int) : ℚ) =
    scale * |(exact : ℚ) / scale - signFactor (isNeg c) * magnitudeUnits (c.toNat % 2 ^ 31)| := by
  have hs : (0 : ℚ) < scale := by exact_mod_cast hs
  rw [units_eq c, ← abs_of_pos hs, ← abs_mul, abs_of_pos hs, mul_sub, mul_div_cancel₀ _ hs.ne']
  push_cast
  rfl

/-- The finite result of `round` meets `NearestEven`. -/
theorem nearestEven_pack {n : Bool} {m : Nat} {x : Int} (hm : m ≠ 0)
    (hv : (exact : ℚ) / scale = signFactor n * exactUnits m x)
    (h : unboundedMagnitude m x < 0x7F800000) :
    NearestEven exact scale (pack n (unboundedMagnitude m x)) := by
  have hlt : unboundedMagnitude m x < 2 ^ 31 := by omega
  refine ⟨(isFinite_iff_magnitude _).mpr (by rwa [toNat_pack_mod hlt]), fun c _ => ?_⟩
  have hscale : (0 : ℚ) < scale := by exact_mod_cast hs
  have hr := distance_eq hs (exact := exact) (pack n (unboundedMagnitude m x))
  have hc := distance_eq hs (exact := exact) c
  rw [isNeg_pack hlt, toNat_pack_mod hlt, hv] at hr
  rw [hv] at hc
  rcases unboundedMagnitude_nearest_signed hm x n (isNeg c) (c.toNat % 2 ^ 31) with hlt | ⟨heq, heven⟩
  · left
    have := mul_lt_mul_of_pos_left hlt hscale
    rw [← hr, ← hc] at this
    exact_mod_cast this
  · have heq : ((|exact - scale * units (pack n (unboundedMagnitude m x))| : Int) : ℚ) =
        (|exact - scale * units c| : Int) := by rw [hr, hc, heq]
    refine .inr ⟨by exact_mod_cast heq, ?_⟩
    rw [toNat_pack_mod_two hlt, units_pack hlt, units_eq c]
    exact_mod_cast heven

/-- What `round` answers for a result's value is that result rounded (R10). -/
theorem IsRoundOf.rounded {r : F32} (h : IsRoundOf ((exact : ℚ) / scale) r) : Rounded exact scale r := by
  have hneg := h.isNeg
  obtain ⟨n, m, x, hm, hv, rfl⟩ := h
  have hscale : (0 : ℚ) < scale := by exact_mod_cast hs
  have habs : ((|exact| : Int) : ℚ) = scale * exactUnits m x := by
    have hsign : |(signFactor n : ℚ)| = 1 := by cases n <;> simp [signFactor]
    rw [Int.cast_abs, (div_eq_iff hscale.ne').mp hv, abs_mul, abs_mul, hsign, one_mul,
      abs_of_pos (exactUnits_pos hm x), abs_of_pos hscale, mul_comm]
  have hbound : |exact| < scale * ((2 ^ 25 - 1) * 2 ^ 252) ↔ unboundedMagnitude m x < 0x7F800000 := by
    rw [unboundedMagnitude_lt_iff hm, ← mul_lt_mul_iff_right₀ hscale, ← habs]
    norm_cast
  refine ⟨fun hlt => ?_, fun hle => ?_⟩
  · have hlt := hbound.mp hlt
    rw [round_of_lt hm n hlt]
    exact nearestEven_pack hs hm hv hlt
  · have hsign : ((exact : ℚ) / scale < 0) ↔ exact < 0 := by
      rw [div_lt_iff₀ hscale, zero_mul]
      norm_cast
    have hge : 0x7F800000 ≤ unboundedMagnitude m x := by
      by_contra hlt
      exact absurd (hbound.mpr (by omega)) (by omega)
    rw [round_of_le hm n hge, ← isNeg_round n m x, hneg, decide_eq_decide.mpr hsign]

/-- A zero is the exact result 0 rounded. -/
theorem rounded_zero (n : Bool) : Rounded 0 scale (zero n) := by
  have hfinite : isFinite (zero n) = true := isFinite_of_isZero (isZero_zero n)
  have heven : (zero n).toNat % 2 = 0 := by cases n <;> decide
  refine ⟨fun _ => ⟨hfinite, fun c _ => ?_⟩, fun hle => ?_⟩
  · rw [units_zero, mul_zero, sub_zero, abs_zero]
    exact (abs_nonneg _).lt_or_eq.imp_right fun h => ⟨h, .inr heven⟩
  · rw [abs_zero] at hle
    exact absurd hle (not_le_of_gt (by positivity))

end

end Sys2Proof.F32
end

section
/-! SUPPORT. What `ieeeAdd` and `ieeeMul` answer, case by case: NaN, infinities, an exact zero, and the
rounded result of finite operands (R10). -/

namespace Sys2Proof.F32

open Sys2Proof.Claims

theorem isNaN_of_isInf {a : F32} (h : isInf a = true) : isNaN a = false := by
  simp only [isInf, Bool.and_eq_true, beq_iff_eq] at h
  simp [isNaN, h.2]

theorem isInf_of_isFinite {a : F32} (h : isFinite a = true) : isInf a = false := ((isFinite_iff a).mp h).2

theorem isNaN_of_isFinite {a : F32} (h : isFinite a = true) : isNaN a = false := ((isFinite_iff a).mp h).1

theorem isFinite_flush (ftz : Bool) (a : F32) : isFinite (flush ftz a) = isFinite a := by
  rw [Bool.eq_iff_iff, isFinite_iff, isFinite_iff, isNaN_flush, isInf_flush]

theorem isZero_iff_units (a : F32) : isZero a = true ↔ units a = 0 := by
  rw [isZero_iff_mant, ← mant_eq_zero_iff]
  refine ⟨And.right, fun h => ⟨?_, h⟩⟩
  unfold mant at h
  split at h
  · assumption
  · omega

/-! Invalid operations: the cases of a NaN result. -/

/-- The sum of `a` and `b` is a NaN. -/
def AddInvalid (a b : F32) : Prop :=
  isNaN a = true ∨ isNaN b = true ∨ (isInf a = true ∧ isInf b = true ∧ isNeg a ≠ isNeg b)

/-- The product of `a` and `b` is a NaN, operands flushed. -/
def MulInvalid (ftz : Bool) (a b : F32) : Prop :=
  isNaN a = true ∨ isNaN b = true ∨ (isInf a = true ∧ isZero (flush ftz b) = true) ∨
    (isZero (flush ftz a) = true ∧ isInf b = true)

theorem addInvalid_neg_right (a b : F32) : AddInvalid a (neg b) ↔
    isNaN a = true ∨ isNaN b = true ∨ (isInf a = true ∧ isInf b = true ∧ isNeg a = isNeg b) := by
  rw [AddInvalid, isNaN_neg, isInf_neg, isNeg_neg]
  simp

theorem addInvalid_flush (ftz : Bool) (a b : F32) :
    AddInvalid (flush ftz a) (flush ftz b) ↔ AddInvalid a b := by
  simp only [AddInvalid, isNaN_flush, isInf_flush, isNeg_flush]

theorem mulInvalid_flush (ftz : Bool) (a b : F32) :
    MulInvalid false (flush ftz a) (flush ftz b) ↔ MulInvalid ftz a b := by
  simp only [MulInvalid, isNaN_flush, isInf_flush, flush_false]

section
variable {a b : F32}

/-! Addition. -/

theorem ieeeAdd_inf_left (ha : isInf a = true) (hb : isNaN b = false)
    (h : isInf b = true → isNeg a = isNeg b) : ieeeAdd a b = a := by
  have hsign : (isInf b && isNeg a != isNeg b) = false := by
    cases hi : isInf b
    · rfl
    · simp [h hi]
  simp [ieeeAdd, isNaN_of_isInf ha, hb, ha, hsign]

theorem ieeeAdd_inf_right (ha : isFinite a = true) (hb : isInf b = true) : ieeeAdd a b = b := by
  simp [ieeeAdd, isNaN_of_isFinite ha, isNaN_of_isInf hb, isInf_of_isFinite ha, hb]

theorem ieeeAdd_of_invalid (h : AddInvalid a b) : ieeeAdd a b = canonicalNaN := by
  unfold ieeeAdd
  rcases h with h | h | ⟨ha, hb, hs⟩
  · simp [h]
  · simp [h]
  · simp [ha, hb, hs]

/-- The significand sum of a finite addition is the exact sum at the operands' lower exponent. -/
theorem sum_mul_two_pow (a b : F32) :
    (signedMant a * 2 ^ (bexp a - min (bexp a) (bexp b)) +
      signedMant b * 2 ^ (bexp b - min (bexp a) (bexp b))) * 2 ^ (min (bexp a) (bexp b) - 1) =
    units a + units b := by
  have ha := bexp_pos a
  have hb := bexp_pos b
  rw [add_mul, mul_assoc, mul_assoc, ← pow_add, ← pow_add, units, units]
  congr 3 <;> omega

theorem ieeeAdd_of_isFinite (ha : isFinite a = true) (hb : isFinite b = true) :
    ∃ (sum : Int) (x : Nat), 1 ≤ x ∧ sum * 2 ^ (x - 1) = units a + units b ∧
      ieeeAdd a b = if sum = 0 then zero (isNeg a && isNeg b)
        else round (decide (sum < 0)) sum.natAbs x := by
  refine ⟨_, min (bexp a) (bexp b), le_min (bexp_pos a) (bexp_pos b), sum_mul_two_pow a b, ?_⟩
  simp [ieeeAdd, isNaN_of_isFinite ha, isNaN_of_isFinite hb, isInf_of_isFinite ha, isInf_of_isFinite hb]

/-- An exact zero sum (R10, entry 15). -/
theorem ieeeAdd_of_sum_zero (ha : isFinite a = true) (hb : isFinite b = true)
    (h : units a + units b = 0) : ieeeAdd a b = zero (isNeg a && isNeg b) := by
  obtain ⟨sum, x, -, hsum, heq⟩ := ieeeAdd_of_isFinite ha hb
  have hzero : sum = 0 := by simpa [h] using hsum
  rw [heq, if_pos hzero]

theorem isRoundOf_ieeeAdd (ha : isFinite a = true) (hb : isFinite b = true)
    (h : units a + units b ≠ 0) : IsRoundOf (units a + units b : Int) (ieeeAdd a b) := by
  obtain ⟨sum, x, hx, hsum, heq⟩ := ieeeAdd_of_isFinite ha hb
  have hne : sum ≠ 0 := by
    rintro rfl
    exact h (by rw [← hsum, zero_mul])
  refine ⟨decide (sum < 0), sum.natAbs, x, Int.natAbs_ne_zero.mpr hne, ?_, by rw [heq, if_neg hne]⟩
  have hexp : (x : Int) - 1 = ((x - 1 : Nat) : Int) := by omega
  have hsign : (sum : ℚ) = signFactor (decide (sum < 0)) * (sum.natAbs : ℚ) := by
    rw [← Int.cast_natCast, ← Int.cast_mul, ← eq_signFactor_mul_natAbs]
  rw [exactUnits, hexp, zpow_natCast, ← mul_assoc, ← hsign, ← hsum]
  push_cast
  rfl

/-- A finite sum that is a finite pattern's value is that pattern. -/
theorem ieeeAdd_eq_of_units {r : F32} (ha : isFinite a = true) (hb : isFinite b = true)
    (hr : isFinite r = true) (hne : units r ≠ 0) (h : units a + units b = units r) : ieeeAdd a b = r := by
  have hround := isRoundOf_ieeeAdd ha hb (h.trans_ne hne)
  rw [h] at hround
  exact hround.eq_of_units hr

theorem isNaN_ieeeAdd_of_valid (h : ¬ AddInvalid a b) : isNaN (ieeeAdd a b) = false := by
  simp only [AddInvalid, not_or, Bool.not_eq_true, not_and, not_not] at h
  obtain ⟨ha, hb, hs⟩ := h
  cases hai : isInf a
  · have hfa := (isFinite_iff a).mpr ⟨ha, hai⟩
    cases hbi : isInf b
    · have hfb := (isFinite_iff b).mpr ⟨hb, hbi⟩
      by_cases hsum : units a + units b = 0
      · rw [ieeeAdd_of_sum_zero hfa hfb hsum]
        exact isNaN_of_isFinite (isFinite_of_isZero (isZero_zero _))
      · exact (isRoundOf_ieeeAdd hfa hfb hsum).isNaN
    · rwa [ieeeAdd_inf_right hfa hbi]
  · rwa [ieeeAdd_inf_left hai hb (hs hai)]

theorem rounded_ieeeAdd (ha : isFinite a = true) (hb : isFinite b = true) :
    Rounded (units a + units b) 1 (ieeeAdd a b) := by
  by_cases h : units a + units b = 0
  · rw [ieeeAdd_of_sum_zero ha hb h, h]
    exact rounded_zero Int.one_pos _
  · refine IsRoundOf.rounded Int.one_pos ?_
    rw [Int.cast_one, div_one]
    exact isRoundOf_ieeeAdd ha hb h

/-! Multiplication. -/

theorem ieeeMul_inf (ha : isNaN a = false) (hb : isNaN b = false) (h : isInf a = true ∨ isInf b = true)
    (hza : isZero a = false) (hzb : isZero b = false) : ieeeMul a b = inf (isNeg a != isNeg b) := by
  rcases h with h | h <;> simp [ieeeMul, ha, hb, h, hza, hzb]

theorem ieeeMul_of_invalid (h : MulInvalid false a b) : ieeeMul a b = canonicalNaN := by
  unfold ieeeMul
  rcases h with h | h | ⟨hi, hz⟩ | ⟨hz, hi⟩
  · simp [h]
  · simp [h]
  · rw [flush_false] at hz
    simp [hi, hz]
  · rw [flush_false] at hz
    simp [hi, hz]

theorem ieeeMul_of_isFinite (ha : isFinite a = true) (hb : isFinite b = true) : ieeeMul a b =
    round (isNeg a != isNeg b) (mant a * mant b) ((bexp a : Int) + (bexp b : Int) - 150) := by
  simp [ieeeMul, isNaN_of_isFinite ha, isNaN_of_isFinite hb, isInf_of_isFinite ha, isInf_of_isFinite hb]

theorem mant_mul_eq_zero_iff : mant a * mant b = 0 ↔ units a * units b = 0 := by
  rw [Nat.mul_eq_zero, mul_eq_zero, mant_eq_zero_iff, mant_eq_zero_iff]

theorem ieeeMul_of_product_zero (ha : isFinite a = true) (hb : isFinite b = true)
    (h : units a * units b = 0) : ieeeMul a b = zero (isNeg a != isNeg b) := by
  rw [ieeeMul_of_isFinite ha hb, round, if_pos (mant_mul_eq_zero_iff.mpr h)]

theorem isRoundOf_ieeeMul (ha : isFinite a = true) (hb : isFinite b = true)
    (h : units a * units b ≠ 0) :
    IsRoundOf ((units a * units b : Int) / (2 ^ 149 : Int)) (ieeeMul a b) := by
  refine ⟨_, _, _, mt mant_mul_eq_zero_iff.mp h, ?_, ieeeMul_of_isFinite ha hb⟩
  have hexp : (bexp a : Int) + bexp b - 150 - 1 =
      ((bexp a - 1 + (bexp b - 1) : Nat) : Int) - (149 : Nat) := by
    have := bexp_pos a
    have := bexp_pos b
    omega
  rw [exactUnits, hexp, zpow_sub₀ two_ne_zero, zpow_natCast, zpow_natCast, signFactor_bne, units, units,
    signedMant_eq, signedMant_eq, pow_add]
  push_cast
  ring

theorem isNaN_ieeeMul_of_valid (h : ¬ MulInvalid false a b) : isNaN (ieeeMul a b) = false := by
  simp only [MulInvalid, flush_false, not_or, not_and, Bool.not_eq_true] at h
  obtain ⟨ha, hb, hab, hba⟩ := h
  by_cases hi : isInf a = true ∨ isInf b = true
  · have hza : isZero a = false := Bool.eq_false_iff.mpr fun hz => by
      simp [isInf_of_isFinite (isFinite_of_isZero hz), hba hz] at hi
    have hzb : isZero b = false := Bool.eq_false_iff.mpr fun hz => by
      have hia : isInf a = false := Bool.eq_false_iff.mpr fun hia => by simp [hab hia] at hz
      simp [isInf_of_isFinite (isFinite_of_isZero hz), hia] at hi
    rw [ieeeMul_inf ha hb hi hza hzb]
    exact isNaN_of_isInf (isInf_inf _)
  · simp only [not_or, Bool.not_eq_true] at hi
    rw [ieeeMul_of_isFinite ((isFinite_iff a).mpr ⟨ha, hi.1⟩) ((isFinite_iff b).mpr ⟨hb, hi.2⟩)]
    exact isNaN_round ..

theorem rounded_ieeeMul (ha : isFinite a = true) (hb : isFinite b = true) :
    Rounded (units a * units b) (2 ^ 149) (ieeeMul a b) := by
  by_cases h : units a * units b = 0
  · rw [ieeeMul_of_product_zero ha hb h, h]
    exact rounded_zero (by norm_num) _
  · exact IsRoundOf.rounded (by norm_num) (isRoundOf_ieeeMul ha hb h)

end

end Sys2Proof.F32
end

section
/-! SUPPORT. `add`, `sub` and `mul`: the operands flushed, the result flushed (R15). -/

namespace Sys2Proof.F32

open Sys2Proof.Claims

@[simp] theorem add_false (a b : F32) : add false a b = ieeeAdd a b := rfl

@[simp] theorem sub_false (a b : F32) : sub false a b = ieeeAdd a (neg b) := rfl

@[simp] theorem mul_false (a b : F32) : mul false a b = ieeeMul a b := rfl

theorem add_flush_operands (a b : F32) : add true (flush true a) (flush true b) = add true a b := by
  rw [add, add, flush_flush, flush_flush]

theorem sub_flush_operands (a b : F32) : sub true (flush true a) (flush true b) = sub true a b := by
  rw [sub, sub, ← flush_neg, add_flush_operands]

theorem mul_flush_operands (a b : F32) : mul true (flush true a) (flush true b) = mul true a b := by
  rw [mul, mul, flush_flush, flush_flush]

section
variable {ftz : Bool} {a b : F32}

/-- A NaN sum is the canonical one, in the invalid cases and no others. -/
theorem add_nan_cases (ftz : Bool) (a b : F32) :
    (AddInvalid a b ∧ add ftz a b = canonicalNaN) ∨
      (¬ AddInvalid a b ∧ isNaN (add ftz a b) = false) := by
  rw [← addInvalid_flush ftz, add]
  by_cases h : AddInvalid (flush ftz a) (flush ftz b)
  · exact .inl ⟨h, by rw [ieeeAdd_of_invalid h, flush_canonicalNaN]⟩
  · exact .inr ⟨h, by rw [isNaN_flush, isNaN_ieeeAdd_of_valid h]⟩

/-- A NaN product is the canonical one, in the invalid cases and no others. -/
theorem mul_nan_cases (ftz : Bool) (a b : F32) :
    (MulInvalid ftz a b ∧ mul ftz a b = canonicalNaN) ∨
      (¬ MulInvalid ftz a b ∧ isNaN (mul ftz a b) = false) := by
  rw [← mulInvalid_flush ftz, mul]
  by_cases h : MulInvalid false (flush ftz a) (flush ftz b)
  · exact .inl ⟨h, by rw [ieeeMul_of_invalid h, flush_canonicalNaN]⟩
  · exact .inr ⟨h, by rw [isNaN_flush, isNaN_ieeeMul_of_valid h]⟩

/-- From the two NaN cases of a result: when it is a NaN, and which. -/
theorem nan_iff_of_cases {p : Prop} {r : F32}
    (h : (p ∧ r = canonicalNaN) ∨ (¬ p ∧ isNaN r = false)) :
    (p ↔ isNaN r = true) ∧ (isNaN r = true → r = 0x7FC00000#32) := by
  rcases h with ⟨hp, hr⟩ | ⟨hp, hr⟩
  · exact ⟨iff_of_true hp (by rw [hr, isNaN_canonicalNaN]), fun _ => hr⟩
  · exact ⟨iff_of_false hp (by simp [hr]), fun h => absurd h (by simp [hr])⟩

/-! Infinite operands. -/

theorem add_inf_left (ha : isInf a = true) (hb : isNaN b = false)
    (h : isInf b = true → isNeg a = isNeg b) : add ftz a b = a := by
  rw [add, flush_of_isInf ha, ieeeAdd_inf_left ha (by rwa [isNaN_flush]), flush_of_isInf ha]
  rwa [isInf_flush, isNeg_flush]

theorem add_inf_right (hb : isInf b = true) (ha : isNaN a = false)
    (h : isInf a = true → isNeg a = isNeg b) : add ftz a b = b := by
  cases hi : isInf a
  · have hfa : isFinite (flush ftz a) = true := by rw [isFinite_flush, isFinite_iff]; exact ⟨ha, hi⟩
    rw [add, flush_of_isInf hb, ieeeAdd_inf_right hfa hb, flush_of_isInf hb]
  · rw [add_inf_left hi (isNaN_of_isInf hb) fun _ => h hi, eq_inf_of_isInf hi, eq_inf_of_isInf hb, h hi]

theorem sub_inf_left (ha : isInf a = true) (hb : isNaN b = false)
    (h : isInf b = true → isNeg a ≠ isNeg b) : sub ftz a b = a :=
  add_inf_left ha (by rwa [isNaN_neg]) fun hi => by
    rw [isNeg_neg, Bool.eq_not_iff]
    exact h (by rwa [← isInf_neg])

theorem sub_inf_right (hb : isInf b = true) (ha : isNaN a = false)
    (h : isInf a = true → isNeg a ≠ isNeg b) : sub ftz a b = neg b :=
  add_inf_right (by rwa [isInf_neg]) ha fun hi => by
    rw [isNeg_neg, Bool.eq_not_iff]
    exact h hi

theorem mul_of_isInf (ha : isNaN a = false) (hb : isNaN b = false) (h : isInf a = true ∨ isInf b = true)
    (hza : isZero (flush ftz a) = false) (hzb : isZero (flush ftz b) = false) :
    mul ftz a b = inf (isNeg a != isNeg b) := by
  rw [mul, ieeeMul_inf (by rwa [isNaN_flush]) (by rwa [isNaN_flush]) (by rwa [isInf_flush, isInf_flush])
    hza hzb, flush_inf, isNeg_flush, isNeg_flush]

/-! Zero results of finite operands. -/

theorem add_of_sum_zero (ha : isFinite a = true) (hb : isFinite b = true)
    (h : units (flush ftz a) + units (flush ftz b) = 0) :
    add ftz a b = zero (isNeg a && isNeg b) := by
  rw [← isFinite_flush ftz] at ha hb
  rw [add, ieeeAdd_of_sum_zero ha hb h, flush_zero, isNeg_flush, isNeg_flush]

theorem add_of_underflow (ha : isFinite a = true) (hb : isFinite b = true)
    (hne : units (flush ftz a) + units (flush ftz b) ≠ 0) (hz : isZero (add ftz a b) = true) :
    add ftz a b = zero (decide (units (flush ftz a) + units (flush ftz b) < 0)) := by
  rw [← isFinite_flush ftz] at ha hb
  have hsign := (isRoundOf_ieeeAdd ha hb hne).isNeg
  rw [show decide (((units (flush ftz a) + units (flush ftz b) : Int) : ℚ) < 0) =
    decide (units (flush ftz a) + units (flush ftz b) < 0) by norm_cast] at hsign
  rw [add, eq_zero_of_isZero_flush hz, hsign]

theorem mul_of_product_zero (ha : isFinite a = true) (hb : isFinite b = true)
    (h : units (flush ftz a) * units (flush ftz b) = 0) :
    mul ftz a b = zero (isNeg a != isNeg b) := by
  rw [← isFinite_flush ftz] at ha hb
  rw [mul, ieeeMul_of_product_zero ha hb h, flush_zero, isNeg_flush, isNeg_flush]

theorem mul_of_underflow (ha : isFinite a = true) (hb : isFinite b = true)
    (hz : isZero (mul ftz a b) = true) : mul ftz a b = zero (isNeg a != isNeg b) := by
  rw [← isFinite_flush ftz] at ha hb
  rw [mul, eq_zero_of_isZero_flush hz, ieeeMul_of_isFinite ha hb, isNeg_round, isNeg_flush, isNeg_flush]

/-! Exact results (R16). -/

/-- A nonzero natural below 2^24 is a finite magnitude: its significand shifted up to 24 bits. -/
theorem exists_magnitudeUnits_eq {n : Nat} (h0 : n ≠ 0) (h : n < 2 ^ 24) :
    ∃ p < 0x7F800000, magnitudeUnits p = n * 2 ^ 149 := by
  have hlog : n.log2 < 24 := (Nat.log2_lt h0).mpr h
  have hlo := Nat.mul_le_mul_right (2 ^ (23 - n.log2)) (Nat.log2_self_le h0)
  have hhi := Nat.mul_lt_mul_of_pos_right (Nat.lt_log2_self (n := n)) (Nat.two_pow_pos (23 - n.log2))
  rw [← Nat.pow_add, show n.log2 + (23 - n.log2) = 23 by omega] at hlo
  rw [← Nat.pow_add, show n.log2 + 1 + (23 - n.log2) = 24 by omega] at hhi
  refine ⟨(126 + n.log2) * 2 ^ 23 + n * 2 ^ (23 - n.log2), by omega, ?_⟩
  rw [magnitudeUnits_block hhi.le (.inr hlo), Nat.mul_assoc, ← Nat.pow_add]
  congr 2
  omega

theorem units_ofNat {n : Nat} (h : n < 2 ^ 24) :
    isFinite (ofNat n) = true ∧ units (ofNat n) = n * 2 ^ 149 := by
  by_cases h0 : n = 0
  · subst h0
    exact ⟨by decide, by decide⟩
  · obtain ⟨p, hp, hval⟩ := exists_magnitudeUnits_eq h0 h
    have hround : unboundedMagnitude n 150 = p := by
      refine unboundedMagnitude_of_exact h0 ?_
      rw [hval, exactUnits]
      norm_num
    rw [ofNat, round_of_lt h0 _ (hround ▸ hp), hround, isFinite_iff_magnitude,
      toNat_pack_mod (by omega), units_pack (by omega), hval]
    exact ⟨hp, by simp [signFactor]⟩

theorem eq_zero_of_units {x : F32} (h : units x = 0) : x = zero (isNeg x) :=
  eq_zero_of_isZero ((isZero_iff_units x).mpr h)

theorem flush_of_ftz_imp {x : F32} (h : ftz = true → isSubnormal x = false) : flush ftz x = x := by
  cases ftz
  · rfl
  · exact flush_of_not_subnormal (h rfl)

theorem flush_posZero (ftz : Bool) : flush ftz 0x00000000#32 = 0x00000000#32 := flush_zero ftz false

theorem mul_one_eq_self {x : F32} (hx : isNaN x = false) (hs : ftz = true → isSubnormal x = false) :
    mul ftz x 0x3F800000#32 = x := by
  have hflush := flush_of_ftz_imp hs
  have hone : flush ftz 0x3F800000#32 = 0x3F800000#32 := flush_of_not_subnormal (by decide)
  have hunits : units 0x3F800000#32 = 2 ^ 149 := by decide
  rw [mul, hflush, hone]
  suffices h : ieeeMul x 0x3F800000#32 = x by rw [h, hflush]
  have hsign : (isNeg x != isNeg 0x3F800000#32) = isNeg x := by
    rw [show isNeg 0x3F800000#32 = false by decide, Bool.bne_false]
  cases hi : isInf x
  · have hf := (isFinite_iff x).mpr ⟨hx, hi⟩
    by_cases h0 : units x = 0
    · rw [ieeeMul_of_product_zero hf (by decide) (by rw [h0, zero_mul]), hsign]
      exact (eq_zero_of_units h0).symm
    · have hround := isRoundOf_ieeeMul hf (b := 0x3F800000#32) (by decide) (by rw [hunits]; simpa using h0)
      rw [hunits] at hround
      refine IsRoundOf.eq_of_units ?_ hf
      convert hround
      push_cast
      field_simp
  · have hz : isZero x = false := Bool.eq_false_iff.mpr fun hz => by
      simp [isInf_of_isFinite (isFinite_of_isZero hz)] at hi
    rw [ieeeMul_inf hx (by decide) (.inl hi) hz (by decide), hsign]
    exact (eq_inf_of_isInf hi).symm

theorem eq_posZero_of_units {x : F32} (h : units x = 0) (hx : x ≠ 0x80000000#32) : x = zero false := by
  have hz := eq_zero_of_units h
  cases hn : isNeg x
  · rwa [hn] at hz
  · rw [hn] at hz
    exact absurd hz hx

theorem add_zero_eq_self {x : F32} (hx : isNaN x = false) (hs : ftz = true → isSubnormal x = false)
    (hne : x ≠ 0x80000000#32) : add ftz x 0x00000000#32 = x ∧ add ftz 0x00000000#32 x = x := by
  have hflush := flush_of_ftz_imp hs
  have hzero : units 0x00000000#32 = 0 := by decide
  cases hi : isInf x
  · have hf := (isFinite_iff x).mpr ⟨hx, hi⟩
    by_cases h0 : units x = 0
    · obtain rfl := eq_posZero_of_units h0 hne
      cases ftz <;> decide
    · have hright : ieeeAdd x 0x00000000#32 = x :=
        ieeeAdd_eq_of_units hf (by decide) hf h0 (by rw [hzero, add_zero])
      have hleft : ieeeAdd 0x00000000#32 x = x :=
        ieeeAdd_eq_of_units (by decide) hf hf h0 (by rw [hzero, zero_add])
      rw [add, add, hflush, flush_posZero, hright, hleft, hflush]
      exact ⟨rfl, rfl⟩
  · exact ⟨add_inf_left hi (by decide) (fun h => absurd h (by decide)),
      add_inf_right hi (by decide) (fun h => absurd h (by decide))⟩

end

end Sys2Proof.F32
end

section
/-! SUPPORT. Where a read or a store needs a unit that does not exist (entry 12): the answer of each
shared operation. -/

namespace Sys2Proof.Machine

open Sys2Proof.Claims

variable {s : State} {line : LineId} {k : Nat} {off g f : F32}

theorem not_cell_lt_of_not_unitExists (h : ¬ UnitExists line k s) : ¬ s.cell line k < arenaUnits := h

theorem validOffset_eq_true (h : ValidOffset off) : F32.validOffset off = true := by
  obtain ⟨-, hge, hinf⟩ := h
  simp [F32.validOffset, hge, hinf]

theorem readUnit_missing (h : ¬ UnitExists line k s) : s.readUnit line k = none :=
  if_neg (not_cell_lt_of_not_unitExists h)

theorem readExact_missing (h : ¬ UnitExists line k s) :
    s.readExact line k = .noUnit (s.cell line k) := by
  simp [State.readExact, readUnit_missing h]

theorem readBetween_first_missing (h : ¬ UnitExists line k s) :
    s.readBetween line k f = .noUnit (s.cell line k) := by
  simp [State.readBetween, readUnit_missing h]

theorem readBetween_second_missing (h : UnitExists line k s) (h' : ¬ UnitExists line (k + 1) s) :
    s.readBetween line k f = .noUnit (s.cell line (k + 1)) := by
  simp [State.readBetween, readUnit_eq h, readUnit_missing h']

theorem readLine_exact (hv : ValidOffset off)
    (hz : F32.isZero (s.sub off (F32.ofNat (F32.floorNat off))) = true)
    (hl : F32.floorNat off < s.len[line]) :
    s.readLine line off = s.readExact line (F32.floorNat off) := by
  simp only [State.readLine, validOffset_eq_true hv, hz, if_true, if_pos hl]

theorem readLine_between (hv : ValidOffset off)
    (hz : F32.isZero (s.sub off (F32.ofNat (F32.floorNat off))) = false)
    (hl : F32.floorNat off + 1 < s.len[line]) :
    s.readLine line off = s.readBetween line (F32.floorNat off)
      (s.sub off (F32.ofNat (F32.floorNat off))) := by
  simp only [State.readLine, validOffset_eq_true hv, hz, if_true, if_pos hl,
    Bool.false_eq_true, if_false]

theorem accumulateRead_noUnit {a : Nat} (h : s.readLine line off = .noUnit a) :
    accumulateRead line off g s = .fault (.arenaIndex a) := by
  simp [accumulateRead, h]

/-- RD and RDM at an offset whose first missing unit is known (R212, R213). -/
theorem missingUnitRule_accumulateRead (line : LineId) (off g : F32) (s : State) :
    MissingUnitRule line off s (accumulateRead line off g s) := by
  intro hv
  refine ⟨fun hz hl hm => ?_, fun hz hl => ⟨fun hm => ?_, fun h1 h2 => ?_⟩⟩
  · exact accumulateRead_noUnit ((readLine_exact hv hz hl).trans (readExact_missing hm))
  · exact accumulateRead_noUnit ((readLine_between hv hz hl).trans (readBetween_first_missing hm))
  · exact accumulateRead_noUnit ((readLine_between hv hz hl).trans (readBetween_second_missing h1 h2))

theorem storeAcc_missing {a : F32} (h : ¬ UnitExists line k s) :
    storeAcc line k a s = .fault (.arenaIndex (s.cell line k)) :=
  if_neg (not_cell_lt_of_not_unitExists h)

theorem fetchFrame_outside (h : 2 ^ 32 < s.frameAddr + 8) :
    fetchFrame s = .fault (.frameAddress s.frameAddr) :=
  if_neg (Nat.not_le_of_lt h)

theorem execEof_outside (ho : s.tickOpen = true) (h : 2 ^ 32 < s.frameAddr + 8) :
    execEof s = .fault (.frameAddress s.frameAddr) :=
  (guarded_open ho).trans (if_neg (Nat.not_le_of_lt h))

theorem engineStep_fetch (hf : s.fault = false) (hp : s.phase = .fetch) :
    engineStep s = fetchFrame s := by
  simp [engineStep, hf, hp]

/-- The engine's turn is an engine micro-step, the move taken off the list (R20, entry 2). -/
theorem step_engineTurn {rest : List Move} (h : EngineTurn rest s) :
    step s = engineStep (popped rest s) := by
  rcases h with ⟨hm, rfl⟩ | hm
  · rw [step_of_no_move hm]
    congr 1
    simp [popped, ← hm]
  · exact step_of_move hm

end Sys2Proof.Machine
end

section
/-! The obligations on the arithmetic of spec/00_scope.md, and on where the model itself stops (entry 12). -/

namespace Sys2Proof.Proofs

open Sys2Proof.Machine Sys2Proof.Claims Sys2Proof.F32

/-- Settles O40: each result is `round` of the exact value, and `round` meets `Rounded`. -/
theorem arithmeticRoundsToNearestEven : Obligations.ArithmeticRoundsToNearestEven := by
  intro a b ha hb
  refine ⟨rounded_ieeeAdd ha hb, ?_, rounded_ieeeMul ha hb⟩
  have hsub := rounded_ieeeAdd ha (b := neg b) (by rwa [isFinite_neg])
  rwa [units_neg, ← sub_eq_add_neg] at hsub

/-- Settles O41: the invalid operations are the cases of a NaN result; `sub` is `add` of the negated. -/
theorem naNResultsAreCanonical : Obligations.NaNResultsAreCanonical := by
  intro ftz a b
  obtain ⟨hadd, haddNaN⟩ := nan_iff_of_cases (add_nan_cases ftz a b)
  obtain ⟨hsub, hsubNaN⟩ := nan_iff_of_cases (add_nan_cases ftz a (neg b))
  obtain ⟨hmul, hmulNaN⟩ := nan_iff_of_cases (mul_nan_cases ftz a b)
  rw [addInvalid_neg_right] at hsub
  exact ⟨hadd, haddNaN, hsub, hsubNaN, hmul, hmulNaN⟩

/-- Settles O42, case by case; the difference is the sum with the negated operand. -/
theorem infiniteAndZeroResults : Obligations.InfiniteAndZeroResults := by
  intro ftz a b hna hnb
  refine ⟨fun ha => add_inf_left ha hnb, fun hb => add_inf_right hb hna, fun ha => sub_inf_left ha hnb,
    fun hb => sub_inf_right hb hna, mul_of_isInf hna hnb, fun ha hb => ?_⟩
  have hb' : isFinite (neg b) = true := by rwa [isFinite_neg]
  have hdiff : units (flush ftz a) - units (flush ftz b) =
      units (flush ftz a) + units (flush ftz (neg b)) := by
    rw [flush_neg, units_neg, sub_eq_add_neg]
  intro x y
  refine ⟨add_of_sum_zero ha hb, add_of_underflow ha hb, fun h => ?_, fun h hz => ?_, fun h => ?_⟩
  · rw [sub, add_of_sum_zero ha hb' (hdiff ▸ h), isNeg_neg]
  · rw [sub, add_of_underflow ha hb' (hdiff ▸ h) hz, ← hdiff]
  · exact h.elim (mul_of_product_zero ha hb) (mul_of_underflow ha hb)

/-- Settles O43: each fact is an exact result, which `round` keeps. -/
theorem exactnessFacts : Obligations.ExactnessFacts := by
  have hzero : units 0x00000000#32 = 0 := by decide
  refine ⟨fun n hn => units_ofNat (by omega), fun a _ => units_neg a,
    fun ftz x hx hs => ⟨mul_one_eq_self hx hs, add_zero_eq_self hx hs⟩, fun ftz x hx => ?_,
    fun ftz x hx => ?_, ?_⟩
  · rw [mul_of_product_zero hx (by decide)]
    · rw [show isNeg 0x00000000#32 = false by decide, Bool.bne_false]
    · rw [flush_posZero, hzero, mul_zero]
  · refine (nan_iff_of_cases (mul_nan_cases ftz x 0x00000000#32)).1.mp (.inr (.inr (.inl ⟨hx, ?_⟩)))
    rw [flush_posZero]
    decide
  · intro ftz
    cases ftz <;> decide

/-- Settles O44: flushing twice is flushing once, and a flushed pattern is no subnormal. -/
theorem flushToZero : Obligations.FlushToZero := by
  intro a b
  refine ⟨(add_flush_operands a b).symm, (sub_flush_operands a b).symm, (mul_flush_operands a b).symm,
    isSubnormal_flush a, flush_of_subnormal, flush_of_not_subnormal, isSubnormal_flush _,
    isSubnormal_flush _, isSubnormal_flush _, fun ha hb => ?_⟩
  have ha := flush_of_not_subnormal (ftz := true) ha
  have hb := flush_of_not_subnormal (ftz := true) hb
  refine ⟨?_, ?_, ?_⟩
  · rw [add, ha, hb, add_false]
  · rw [sub, add, flush_neg, ha, hb, sub_false]
  · rw [mul, ha, hb, mul_false]

/-- Settles O26: each access goes through one shared operation, and each operation stops at the first
unit or frame that does not exist. -/
theorem missingStorageStopsTheModel : Obligations.MissingStorageStopsTheModel := by
  refine ⟨fun line off base depth lfo coef s ho => ⟨?rd, ?rdm, ?wrap, ?wr, ?eof⟩, ?fetch⟩
  case rd =>
    have hexec : exec (.rd line off coef) s =
        accumulateRead line (s.offsetR line off) (s.coef coef) s := guarded_open ho
    rw [hexec]
    exact missingUnitRule_accumulateRead _ _ _ _
  case rdm =>
    have hexec : exec (.rdm line base depth lfo coef) s =
        accumulateRead line (s.offsetM base depth lfo) (s.coef coef) s := guarded_open ho
    rw [hexec]
    exact missingUnitRule_accumulateRead _ _ _ _
  case wrap =>
    intro htag hm
    exact (guarded_open ho).trans ((if_pos htag).trans (storeAcc_missing hm))
  case wr =>
    intro k hv hl hm
    have hoff : s.writeOffset line (s.offsetR line off) = some k :=
      writeOffset_eq_some.mpr ⟨validOffset_eq_true hv, hl, rfl⟩
    have hexec : exec (.wr line off coef) s = execWr line off coef s := rfl
    rw [hexec, execWr, guarded_open ho, hoff]
    exact storeAcc_missing hm
  case eof => exact execEof_outside ho
  case fetch =>
    intro s rest hturn hf hp hout
    rw [step_engineTurn hturn, engineStep_fetch (s := popped rest s) hf hp]
    exact fetchFrame_outside hout

end Sys2Proof.Proofs
end

section
/-! SUPPORT. Everything a move can do to the state, each effect said once: first what a micro-instruction
does when it answers a next state, then what any move of the interleaving does (R20). -/

namespace Sys2Proof.Machine

open Sys2Proof.Claims

variable {s t : State}

/-- What a micro-instruction can do to `s` when it answers a next state (R101, R410). -/
inductive ExecEffect (s : State) : State → Prop
  /-- A fault is taken. -/
  | raise (c : FaultCause) : ExecEffect s (s.raise c)
  /-- The accumulator, the tagged sample and the frame registers: NOP, RDIN, RD, RDM, LD, XFADE. -/
  | registers (acc prev : F32) (tag : Option LineId) (fl fr : F32) :
    ExecEffect s { s with acc := acc, prev := prev, prevTag := tag, fl := fl, fr := fr, upc := s.upc + 1 }
  /-- A scalar register becomes valid: WROUT, LP. -/
  | scalar (r : ScalarReg) (v acc : F32) : ExecEffect s ((s.setScalar r v).setAcc acc).advance
  /-- An existing arena unit is stored: WRAP, WR. -/
  | store (a : Nat) (v acc : F32) (ha : a < arenaUnits) :
    ExecEffect s { s with arena := writeCell s.arena a (s.enc v), acc := acc, prevTag := none,
                          upc := s.upc + 1 }
  /-- START opens a tick. -/
  | openTick : ExecEffect s s.openTick.advance
  /-- EOF closes it. -/
  | closeFrame : ExecEffect s s.closeFrame

theorem execEffect_of_guarded {run : Result} (h : guarded s run = .next t)
    (hrun : run = .next t → ExecEffect s t) : ExecEffect s t := by
  rcases guarded_next h with ⟨-, h⟩ | ⟨-, rfl⟩
  · exact hrun h
  · exact .raise _

theorem execEffect_of_withScalar {r : ScalarReg} {use : F32 → Result} (h : withScalar r s use = .next t)
    (huse : use s.sreg[r] = .next t → ExecEffect s t) : ExecEffect s t := by
  rcases withScalar_next h with ⟨-, h⟩ | ⟨-, rfl⟩
  · exact huse h
  · exact .raise _

theorem execEffect_of_accumulateRead {line : LineId} {off g : F32}
    (h : accumulateRead line off g s = .next t) : ExecEffect s t := by
  rcases accumulateRead_next h with ⟨v, -, rfl⟩ | ⟨-, rfl⟩
  · exact .registers _ v (some line) _ _
  · exact .raise _

theorem execEffect_of_storeAcc {line : LineId} {k : Nat} {a : F32} (h : storeAcc line k a s = .next t) :
    ExecEffect s t := by
  obtain ⟨ha, rfl⟩ := storeAcc_next h
  exact .store _ _ _ ha

theorem execEffect_setChannel (ch : Channel) (v : F32) (s : State) :
    ExecEffect s (s.setChannel ch v).advance := by
  cases ch <;> exact .registers _ _ _ _ _

/-- Every micro-instruction has one of the effects. -/
theorem execEffect_of_exec {i : Instr} (h : exec i s = .next t) : ExecEffect s t := by
  cases i with
  | nop =>
    cases h
    exact .registers _ _ _ _ _
  | start =>
    rcases execStart_next h with ⟨-, rfl⟩ | ⟨-, -, rfl⟩ | ⟨-, -, rfl⟩
    · exact .raise _
    · exact .raise _
    · exact .openTick
  | rdin src coef =>
    refine execEffect_of_guarded h fun h => ?_
    cases h
    exact .registers _ _ _ _ _
  | rd line off coef => exact execEffect_of_guarded h execEffect_of_accumulateRead
  | rdm line base depth lfo coef => exact execEffect_of_guarded h execEffect_of_accumulateRead
  | wrap line coef =>
    refine execEffect_of_guarded h fun h => ?_
    split at h
    · exact execEffect_of_storeAcc h
    · cases h
      exact .raise _
  | wr line off coef =>
    refine execEffect_of_guarded h fun h => ?_
    split at h
    · exact execEffect_of_storeAcc h
    · cases h
      exact .raise _
  | wrout reg coef =>
    refine execEffect_of_guarded h fun h => ?_
    cases h
    exact .scalar _ _ _
  | ld reg =>
    refine execEffect_of_guarded h fun h => execEffect_of_withScalar h fun h => ?_
    cases h
    exact .registers _ _ _ _ _
  | lp reg coef =>
    refine execEffect_of_guarded h fun h => execEffect_of_withScalar h fun h => ?_
    cases h
    exact .scalar _ _ _
  | xfade ch reg =>
    refine execEffect_of_guarded h fun h => execEffect_of_withScalar h fun h => ?_
    cases h
    exact execEffect_setChannel _ _ _
  | eof =>
    rcases execEof_next h with ⟨-, rfl⟩ | ⟨-, -, rfl⟩
    · exact .raise _
    · exact .closeFrame

/-- What a move can do to the state `s` in which it is made (R20, R310, R500). -/
inductive MoveEffect (s : State) : State → Prop
  /-- Nothing: the engine at rest, an ignored host write. -/
  | same : MoveEffect s s
  /-- A fault is taken by the engine or by a host command. -/
  | raise (c : FaultCause) : MoveEffect s (s.raise c)
  /-- A frame is fetched (R274). -/
  | fetch (hf : s.fault = false) (hp : s.phase = .fetch) : MoveEffect s
      { s with fl := readFrameWord s.mem s.frameAddr, fr := readFrameWord s.mem (s.frameAddr + 4),
               upc := 0, phase := .run }
  /-- A word of the ROM is executed. -/
  | exec {t : State} (hf : s.fault = false) (hp : s.phase = .run) (hu : s.upc < s.ucode.length)
    (h : ExecEffect s t) : MoveEffect s t
  /-- A host read. -/
  | hostData (d : Word) : MoveEffect s { s with hostData := d }
  /-- The host writes a byte of frame memory. -/
  | frameByte (a : Nat) (v : Byte) : MoveEffect s { s with mem := writeCell s.mem a v }
  /-- The host writes a parameter or frame register (R302, R303). -/
  | hostRegisters (p : ParamFile F32) (v : ParamFile Bool) (b c : Word) :
    MoveEffect s (withHostRegisters p v b c s)
  /-- INIT (R250). -/
  | initialise (hp : s.phase = .idle) : MoveEffect s s.initialise
  /-- PROCESS (R300). -/
  | startBlock (hf : s.fault = false) (hp : s.phase = .idle) (hi : s.inited = true)
    (ha : s.frameBase.toNat % 4 = 0) (hfit : s.blockFits = true) : MoveEffect s s.startBlock
  /-- Hardware reset (R500). -/
  | reset (d : Draw) : MoveEffect s (hardwareReset d s)

theorem phase_eq_idle_of_not_busy (h : ¬ s.busy = true) : s.phase = .idle := by
  simpa [State.busy] using h

theorem moveEffect_of_engineStep (h : engineStep s = .next t) : MoveEffect s t := by
  rcases engineStep_next h with ⟨-, rfl⟩ | ⟨hf, hp, h⟩ | ⟨-, -, -, rfl⟩ | ⟨-, -, _, _, -, -, rfl⟩ |
    ⟨hf, hp, w, i, hw, -, h⟩
  · exact .same
  · obtain ⟨-, rfl⟩ := fetchFrame_next h
    exact .fetch hf hp
  · exact .raise _
  · exact .raise _
  · obtain ⟨hu, -⟩ := List.getElem?_eq_some_iff.mp hw
    exact .exec hf hp hu (execEffect_of_exec h)

theorem moveEffect_commandInit (s : State) : MoveEffect s (commandInit s) := by
  unfold commandInit
  split
  · exact .raise _
  · rename_i hb
    split
    · exact .raise _
    · split
      · exact .raise _
      · exact .initialise (phase_eq_idle_of_not_busy hb)

theorem moveEffect_commandProcess (hf : s.fault = false) : MoveEffect s (commandProcess s) := by
  unfold commandProcess
  split
  · exact .raise _
  · rename_i hb
    split
    · exact .raise _
    · rename_i hi
      split
      · exact .raise _
      · rename_i ha
        split
        · exact .raise _
        · rename_i hfit
          exact .startBlock hf (phase_eq_idle_of_not_busy hb) (by simpa using hi) (by simpa using ha)
            (by simpa using hfit)

theorem moveEffect_ctrlWrite (v : Word) (s : State) : MoveEffect s (ctrlWrite v s) := by
  unfold ctrlWrite
  split
  · exact .same
  · have hf : s.fault = false := by simpa using ‹¬ s.fault = true›
    split
    · exact .same
    · split
      · exact moveEffect_commandInit s
      · split
        · exact moveEffect_commandProcess hf
        · exact .raise _

/-- A host write is a command, the write of a parameter or frame register, or nothing (R310). -/
theorem moveEffect_hostWrite (o : Nat) (v : Word) (s : State) : MoveEffect s (hostWrite o v s) := by
  unfold hostWrite
  split
  case h_1 => exact moveEffect_ctrlWrite v s
  case h_10 => exact .same
  all_goals exact .hostRegisters _ _ _ _

theorem eq_access_of_withFrameByte {a : Nat} {access : State} (h : withFrameByte a s access = .next t) :
    t = access := by
  rcases withFrameByte_cases a s access with ⟨-, ha⟩ | ⟨-, -, ha⟩ | ⟨-, -, -, ha⟩ | ⟨-, -, -, ha⟩ <;>
    cases ha.symm.trans h
  rfl

theorem moveEffect_of_takeMove {m : Move} (h : takeMove m s = .next t) : MoveEffect s t := by
  cases m with
  | engine => exact moveEffect_of_engineStep h
  | hostRead o =>
    simp only [takeMove] at h
    split at h <;> cases h
    exact .hostData _
  | hostWrite o v =>
    simp only [takeMove] at h
    split at h <;> cases h
    exact moveEffect_hostWrite o v s
  | frameRead a =>
    obtain rfl := eq_access_of_withFrameByte h
    exact .hostData _
  | frameWrite a v =>
    obtain rfl := eq_access_of_withFrameByte h
    exact .frameByte a v
  | reset d =>
    cases h
    exact .reset d

/-- What no step writes: the ROM, the implementation parameters and the line lengths (R34, R6, R30). -/
def SameBlock (s t : State) : Prop := t.ucode = s.ucode ∧ t.cfg = s.cfg ∧ t.len = s.len

theorem sameBlock_raise (c : FaultCause) (s : State) : SameBlock s (s.raise c) :=
  ⟨raise_ucode s c, raise_cfg s c, raise_len s c⟩

theorem ExecEffect.sameBlock (h : ExecEffect s t) : SameBlock s t := by
  cases h with
  | raise c => exact sameBlock_raise c s
  | _ => exact ⟨rfl, rfl, rfl⟩

theorem MoveEffect.sameBlock (h : MoveEffect s t) : SameBlock s t := by
  cases h with
  | raise c => exact sameBlock_raise c s
  | exec hf hp hu h => exact h.sameBlock
  | _ => exact ⟨rfl, rfl, rfl⟩

/-- A step is the effect of one move, made with the moves after it still to come (R20). -/
theorem moveEffect_of_step (h : step s = .next t) : ∃ rest, MoveEffect (popped rest s) t := by
  rcases step_cases s with ⟨hm, hs⟩ | ⟨m, rest, -, hs⟩
  · have hpop : popped [] s = s := by simp [popped, ← hm]
    exact ⟨[], hpop.symm ▸ moveEffect_of_engineStep (hs.symm.trans h)⟩
  · exact ⟨rest, moveEffect_of_takeMove (hs.symm.trans h)⟩

end Sys2Proof.Machine
end

section
/-! SUPPORT. The invariant of every run through each effect. -/

namespace Sys2Proof.Machine

open Sys2Proof.Claims

variable {s t : State}

theorem inRange_lawful (p : Word) (v : F32) : Wave.inRange (Wave.lawful p v) = true := by
  unfold Wave.lawful
  split_ifs with h0 h1 h2 h3 hv
  · decide
  · decide
  · decide
  · decide
  · exact hv
  · decide

/-- Every `WAVE` keeps to its range (R203). -/
theorem inRange_waveValue (kind : WaveKind) (p : Word) : Wave.inRange (Wave.value kind p) = true := by
  cases kind <;> exact inRange_lawful _ _

theorem q15Magnitude_le (t : F32) (limit : Nat) : q15Magnitude t limit ≤ limit := by
  unfold q15Magnitude
  split
  · exact Nat.le_refl _
  · exact Nat.min_le_right _ _

theorem unitOf_q15s_of_lt {n : Nat} (h : n < 2 ^ 16) :
    unitOf .q15s (BitVec.ofNat 32 n) = BitVec.ofNat 32 n := by
  apply BitVec.eq_of_toNat_eq
  simp only [unitOf, BitVec.toNat_setWidth, BitVec.toNat_ofNat]
  omega

/-- `enc` gives a unit of the format's width (R75, R76). -/
theorem unitOf_encode32 (fmt : StoreFmt) (ftz : Bool) (v : F32) :
    unitOf fmt (encode32 fmt ftz v) = encode32 fmt ftz v := by
  cases fmt with
  | f32 => rfl
  | q15s =>
    simp only [encode32]
    split
    · rfl
    · split
      · exact unitOf_q15s_of_lt (Nat.mod_lt _ (by decide))
      · exact unitOf_q15s_of_lt (Nat.lt_of_le_of_lt (q15Magnitude_le _ _) (by decide))

/-- A validity bit stays set when another is set (R25). -/
theorem getElem_set_true_of_true {v : Vector Bool 4} {r k : ScalarReg} (h : v[k] = true) :
    (v.set r true)[k] = true := by
  simp only [Fin.getElem_fin, Vector.getElem_set]
  split
  · rfl
  · exact h

theorem lineLengths_pos (i : LineId) : 0 < lineLengths[i] := by
  revert i
  decide

/-- INIT places the lines (R250, R251). -/
theorem linesPlaced_initialise (h : s.len = lineLengths) : s.initialise.linesPlaced := by
  refine ⟨h, fun i => ?_, fun i => ?_⟩
  · simp [h]
  · have hzero : s.initialise.wp[i] = 0 := by fin_cases i <;> rfl
    rw [hzero]
    exact h ▸ lineLengths_pos i

/-- START moves every write index inside its line (R31). -/
theorem linesPlaced_openTick (h : s.linesPlaced) : s.openTick.linesPlaced := by
  obtain ⟨hlen, hbase, hwp⟩ := h
  refine ⟨hlen, hbase, fun i => ?_⟩
  have hpos : 0 < s.len[i] := hlen ▸ lineLengths_pos i
  simpa [State.nextWp] using Nat.mod_lt _ hpos

/-- The block goes on while a frame is left (R271). -/
theorem blockRunning_closeFrame (h : s.blockRunning) (hlast : s.fidx + 1#32 < s.blkCount) :
    s.closeFrame.blockRunning := by
  obtain ⟨hi, hf, halign, hspace, hwin, -, hdone⟩ := h
  exact ⟨hi, hf, halign, hspace, hwin, BitVec.lt_def.mp hlast, congrArg (· + 1#32) hdone⟩

/-- PROCESS accepts a block that has a frame (R300). -/
theorem blockRunning_startBlock (hf : s.fault = false) (hi : s.inited = true)
    (ha : s.frameBase.toNat % 4 = 0) (hfit : s.blockFits = true) (hc : s.frameCount ≠ 0#32) :
    s.startBlock.blockRunning := by
  have hpos : 0 < s.frameCount.toNat := by
    simpa [Nat.pos_iff_ne_zero, ← BitVec.toNat_inj] using hc
  simp only [State.blockFits, Bool.and_eq_true, decide_eq_true_eq] at hfit
  obtain ⟨hspace, hwin⟩ := hfit
  exact ⟨hi, hf, ha, hspace, hwin, hpos, rfl⟩

namespace State.Inv

theorem pop (h : s.Inv) (rest : List Move) : (popped rest s).Inv := { h with }

/-- Fault entry keeps what it does not write, and its record is a cause (R410, R411). -/
theorem raise (h : s.Inv) (c : FaultCause) : (s.raise c).Inv := by
  rcases raise_cases c s with ⟨-, hr⟩ | ⟨-, hr⟩ <;> rw [hr] <;>
  exact { h with
    noRecord := nofun
    halted := fun _ => ⟨code_ne_zero c, rfl⟩
    running := fun hp => absurd rfl hp
    tick := fun _ => .inr rfl }

/-- An open tick means that a word is running, as long as no fault came. -/
theorem tickOpen_eq_false (h : s.Inv) (hf : s.fault = false) (hp : s.phase ≠ .run) :
    s.tickOpen = false := by
  by_contra ho
  rcases h.tick (by simpa using ho) with hr | hr
  · exact hp hr
  · simp [hf] at hr

theorem scalar (h : s.Inv) (hu : s.upc < s.ucode.length) (r : ScalarReg) (v acc : F32) :
    ((s.setScalar r v).setAcc acc).advance.Inv :=
  { h with
    upcInRom := hu
    filters := fun hi =>
      (h.filters hi).imp (getElem_set_true_of_true (k := 2)) (getElem_set_true_of_true (k := 3)) }

theorem store (h : s.Inv) (hu : s.upc < s.ucode.length) (a : Nat) (v acc : F32) (ha : a < arenaUnits) :
    State.Inv { s with arena := writeCell s.arena a (s.enc v), acc := acc, prevTag := none,
                       upc := s.upc + 1 } :=
  { h with
    upcInRom := hu
    arenaWf := Arena.wf_writeCell h.arenaWf ha _
    unitsFit := fun c hc => by
      rcases mem_writeCell hc with rfl | hc
      · exact unitOf_encode32 _ _ _
      · exact h.unitsFit c hc }

theorem openTick (h : s.Inv) (hp : s.phase = .run) (hu : s.upc < s.ucode.length) :
    s.openTick.advance.Inv :=
  { h with
    upcInRom := hu
    placed := fun hi => linesPlaced_openTick (h.placed hi)
    filters := fun hi => by simpa using h.filters hi
    tick := fun _ => .inl hp
    waves := fun _ k => by simpa using inRange_waveValue _ _ }

theorem closeFrame (h : s.Inv) (hf : s.fault = false) (hp : s.phase = .run) : s.closeFrame.Inv :=
  { h with
    memWf := Memory.wf_writeFrameWord (Memory.wf_writeFrameWord h.memWf _ _) _ _
    halted := fun hfault => nomatch hf.symm.trans hfault
    running := fun hrun => by
      have hb : s.blockRunning := h.running (by simp [hp])
      by_cases hlast : s.fidx + 1#32 < s.blkCount
      · exact blockRunning_closeFrame hb hlast
      · exact absurd (if_neg hlast) hrun
    tick := nofun
    waves := nofun }

/-- A micro-instruction keeps the invariant. -/
theorem execEffect (h : s.Inv) (hf : s.fault = false) (hp : s.phase = .run)
    (hu : s.upc < s.ucode.length) (he : ExecEffect s t) : t.Inv := by
  cases he with
  | raise c => exact h.raise c
  | registers acc prev tag fl fr => exact { h with upcInRom := hu }
  | scalar r v acc => exact h.scalar hu r v acc
  | store a v acc ha => exact h.store hu a v acc ha
  | openTick => exact h.openTick hp hu
  | closeFrame => exact h.closeFrame hf hp

theorem fetch (h : s.Inv) (hf : s.fault = false) (hp : s.phase = .fetch) (fl fr : F32) :
    State.Inv { s with fl := fl, fr := fr, upc := 0, phase := .run } :=
  { h with
    upcInRom := Nat.zero_le _
    halted := fun hfault => nomatch hf.symm.trans hfault
    running := fun _ => h.running (by simp [hp])
    tick := fun _ => .inl rfl }

theorem initialise (h : s.Inv) (hp : s.phase = .idle) : s.initialise.Inv :=
  { h with
    placed := fun _ => linesPlaced_initialise h.lengths
    increments := fun _ => rfl
    filters := fun _ => by simp
    running := fun hrun => absurd hp hrun }

theorem startBlock (h : s.Inv) (hf : s.fault = false) (hp : s.phase = .idle) (hi : s.inited = true)
    (ha : s.frameBase.toNat % 4 = 0) (hfit : s.blockFits = true) : s.startBlock.Inv :=
  { h with
    halted := fun hfault => nomatch hf.symm.trans hfault
    running := fun hrun => by
      by_cases hc : s.frameCount = 0#32
      · exact absurd (if_pos hc) hrun
      · exact blockRunning_startBlock hf hi ha hfit hc
    tick := fun ho => nomatch ho.symm.trans (h.tickOpen_eq_false hf (by simp [hp])) }

/-- Reset gives the invariant back whatever the move draws (R60, R500). -/
theorem reset (h : s.Inv) (d : Draw) : (hardwareReset d s).Inv :=
  { h with
    arenaWf := arenaOf_wf _ _
    unitsFit := arenaOf_units _ _
    upcInRom := Nat.zero_le _
    placed := nofun
    increments := nofun
    filters := nofun
    noRecord := fun _ => ⟨rfl, rfl, rfl, rfl⟩
    halted := nofun
    running := fun hp => absurd rfl hp
    tick := nofun
    waves := nofun }

/-- Every move keeps the invariant. -/
theorem moveEffect (h : s.Inv) (hm : MoveEffect s t) : t.Inv := by
  cases hm with
  | same => exact h
  | raise c => exact h.raise c
  | fetch hf hp => exact h.fetch hf hp _ _
  | exec hf hp hu he => exact h.execEffect hf hp hu he
  | hostData d => exact { h with }
  | frameByte a v => exact { h with memWf := Memory.wf_writeCell h.memWf a v }
  | hostRegisters p v b c => exact { h with }
  | initialise hp => exact h.initialise hp
  | startBlock hf hp hi ha hfit => exact h.startBlock hf hp hi ha hfit
  | reset d => exact h.reset d

end State.Inv

end Sys2Proof.Machine
end

section
/-! SUPPORT. What does not see the parameter and frame registers (R24, R43, R44): the shared operations,
and the instructions that choose between two of them. -/

namespace Sys2Proof.Machine

open Sys2Proof.Claims

/-- The answer of a fault does not see the host registers. -/
theorem next_raise_withHostRegisters (p : ParamFile F32) (v : ParamFile Bool) (b c : Word) (f : FaultCause)
    (s : State) : (.next ((withHostRegisters p v b c s).raise f) : Result) =
      answerWithHostRegisters p v b c (.next (s.raise f)) := by
  cases f <;> rfl

section
variable {p : ParamFile F32} {v : ParamFile Bool} {b c : Word} {s : State}

theorem guarded_withHostRegisters {run run' : Result} (h : run' = answerWithHostRegisters p v b c run) :
    guarded (withHostRegisters p v b c s) run' = answerWithHostRegisters p v b c (guarded s run) := by
  cases ho : s.tickOpen
  · rw [guarded_closed ho, guarded_closed (s := withHostRegisters p v b c s) ho]
    exact next_raise_withHostRegisters p v b c _ s
  · rwa [guarded_open ho, guarded_open (s := withHostRegisters p v b c s) ho]

theorem withScalar_withHostRegisters {r : ScalarReg} {use use' : F32 → Result}
    (h : ∀ w, use' w = answerWithHostRegisters p v b c (use w)) :
    withScalar r (withHostRegisters p v b c s) use' =
      answerWithHostRegisters p v b c (withScalar r s use) := by
  cases hv : s.sv[r]
  · rw [withScalar_invalid hv, withScalar_invalid (s := withHostRegisters p v b c s) hv]
    exact next_raise_withHostRegisters p v b c _ s
  · rw [withScalar_valid hv, withScalar_valid (s := withHostRegisters p v b c s) hv]
    exact h _

theorem accumulateRead_withHostRegisters (line : LineId) (off g : F32) :
    accumulateRead line off g (withHostRegisters p v b c s) =
      answerWithHostRegisters p v b c (accumulateRead line off g s) := by
  have hread : (withHostRegisters p v b c s).readLine line off = s.readLine line off := rfl
  cases hr : s.readLine line off with
  | value x =>
    rw [accumulateRead_value hr, accumulateRead_value (hread.trans hr)]
    rfl
  | outOfRange =>
    rw [accumulateRead_outOfRange hr, accumulateRead_outOfRange (hread.trans hr)]
    exact next_raise_withHostRegisters p v b c _ s
  | noUnit a =>
    rw [accumulateRead_noUnit hr, accumulateRead_noUnit (hread.trans hr)]
    rfl

theorem storeAcc_withHostRegisters (line : LineId) (k : Nat) (acc : F32) :
    storeAcc line k acc (withHostRegisters p v b c s) =
      answerWithHostRegisters p v b c (storeAcc line k acc s) := by
  by_cases hk : UnitExists line k s
  · rw [storeAcc_inside hk, storeAcc_inside (s := withHostRegisters p v b c s) hk]
    rfl
  · rw [storeAcc_missing hk, storeAcc_missing (s := withHostRegisters p v b c s) hk]
    rfl

theorem execWrap_withHostRegisters (line : LineId) (coef : Coef) :
    execWrap line coef (withHostRegisters p v b c s) =
      answerWithHostRegisters p v b c (execWrap line coef s) := by
  refine guarded_withHostRegisters ?_
  by_cases htag : s.prevTag = some line
  · rw [if_pos htag]
    exact (if_pos htag).trans (storeAcc_withHostRegisters _ _ _)
  · rw [if_neg htag]
    exact (if_neg htag).trans (next_raise_withHostRegisters p v b c _ s)

theorem execWr_withHostRegisters (line : LineId) (off : Offset) (coef : Coef) :
    execWr line off coef (withHostRegisters p v b c s) =
      answerWithHostRegisters p v b c (execWr line off coef s) := by
  have hoff : (withHostRegisters p v b c s).writeOffset line
      ((withHostRegisters p v b c s).offsetR line off) = s.writeOffset line (s.offsetR line off) := rfl
  refine guarded_withHostRegisters ?_
  rw [hoff]
  cases s.writeOffset line (s.offsetR line off) with
  | some k => exact storeAcc_withHostRegisters _ _ _
  | none => exact next_raise_withHostRegisters p v b c _ s

theorem execEof_withHostRegisters :
    execEof (withHostRegisters p v b c s) = answerWithHostRegisters p v b c (execEof s) := by
  refine guarded_withHostRegisters ?_
  by_cases ha : s.frameAddr + 8 ≤ 2 ^ 32
  · rw [if_pos ha]
    exact if_pos ha
  · rw [if_neg ha]
    exact if_neg ha

end

end Sys2Proof.Machine
end

section
/-! SUPPORT. The two words the host reads the block's bits in. -/

namespace Sys2Proof.Machine

/-- `STATUS` bit by bit (R42). -/
theorem getLsbD_statusWord (s : State) (i : Nat) : s.statusWord.getLsbD i =
    if i = 0 then s.inited
    else if i = 1 then s.busy
    else if i = 2 then s.fault
    else if i = 3 then false
    else if i < 8 then s.fcause.getLsbD (i - 4)
    else if i = 8 then s.pv.amount
    else if i = 9 then s.pv.inputGain
    else if i = 10 then s.pv.time
    else if i = 11 then s.pv.diffusion
    else if i = 12 then s.pv.lp
    else if i = 13 then s.pv.size
    else false := by
  change BitVec.getLsbD (_ ++ _ : BitVec (_ + _)) i = _
  simp only [BitVec.getLsbD_append, BitVec.getLsbD_ofBool, BitVec.getLsbD_zero]
  grind (splits := 20)

/-- `FAULT_UPC` bit by bit (R51). -/
theorem getLsbD_faultUpcWord (s : State) (i : Nat) : s.faultUpcWord.getLsbD i =
    if i < 9 then s.fupc.getLsbD i else if i = 16 then s.fsrc else false := by
  change BitVec.getLsbD (_ ++ _ : BitVec (_ + _)) i = _
  simp only [BitVec.getLsbD_append, BitVec.getLsbD_ofBool, BitVec.getLsbD_zero]
  grind

/-- A field of a word, from its bits. -/
theorem extractLsb'_eq_of_getLsbD {n start : Nat} {w : Word} {x : BitVec n}
    (h : ∀ i < n, w.getLsbD (start + i) = x.getLsbD i) : w.extractLsb' start n = x := by
  refine BitVec.eq_of_getLsbD_eq fun i hi => ?_
  rw [BitVec.getLsbD_extractLsb', h i hi]
  simp [hi]

end Sys2Proof.Machine
end

section
/-! The obligations on the state of spec/10_state.md. -/

namespace Sys2Proof.Proofs

open Sys2Proof.Machine Sys2Proof.Claims

/-- Settles O58: a step is the effect of one move, and every effect keeps the invariant. -/
theorem everyStepKeepsTheInvariant : Obligations.EveryStepKeepsTheInvariant := by
  intro s t h hstep
  obtain ⟨rest, heffect⟩ := moveEffect_of_step hstep
  exact (h.pop rest).moveEffect heffect

/-- Settles O24: no effect of a move writes them. -/
theorem romIsNeverWritten : Obligations.RomIsNeverWritten := by
  intro s t hstep
  obtain ⟨rest, heffect⟩ := moveEffect_of_step hstep
  exact heffect.sameBlock

/-- Settles O25: no shared operation but `openTick` reads the parameter and frame registers. -/
theorem hostWritesWaitForTheNextStart : Obligations.HostWritesWaitForTheNextStart := by
  intro i s p v b c hi
  cases i with
  | nop => rfl
  | start => exact absurd rfl hi
  | rdin src coef => exact guarded_withHostRegisters rfl
  | rd line off coef => exact guarded_withHostRegisters (accumulateRead_withHostRegisters _ _ _)
  | rdm line base depth lfo coef => exact guarded_withHostRegisters (accumulateRead_withHostRegisters _ _ _)
  | wrap line coef => exact execWrap_withHostRegisters line coef
  | wr line off coef => exact execWr_withHostRegisters line off coef
  | wrout reg coef => exact guarded_withHostRegisters rfl
  | ld reg => exact guarded_withHostRegisters (withScalar_withHostRegisters fun _ => rfl)
  | lp reg coef => exact guarded_withHostRegisters (withScalar_withHostRegisters fun _ => rfl)
  | xfade ch reg =>
    refine guarded_withHostRegisters (withScalar_withHostRegisters fun _ => ?_)
    cases ch <;> rfl
  | eof => exact execEof_withHostRegisters

/-- Settles O36: each bit is read off the table of its word. -/
theorem statusRegisterBits : Obligations.StatusRegisterBits := by
  intro s
  have hbit := getLsbD_statusWord s
  have hbusy : s.statusWord.getLsbD 1 = true ↔ s.phase ≠ .idle := by
    rw [show s.statusWord.getLsbD 1 = s.busy from hbit 1]
    simp [State.busy]
  have hfault := getLsbD_faultUpcWord s
  refine ⟨hbit 0, hbusy, hbit 2, hbit 3, ?fcause, hbit 8, hbit 9, hbit 10, hbit 11, hbit 12, hbit 13, ?high,
    ?fupc, ?gap, hfault 16, ?top⟩
  all_goals exact extractLsb'_eq_of_getLsbD fun i hi => by grind

/-- Settles O38: the fields of `State.reset`, read off. -/
theorem resetStateValues : Obligations.ResetStateValues :=
  ⟨rfl, rfl, rfl, rfl, rfl, rfl, rfl, rfl, rfl, rfl, rfl, rfl, rfl, rfl, by decide, by decide, rfl⟩

/-- Settles O57: the storages are empty, and the clauses about INIT, a fault, a block and a tick ask
nothing of a block that has had none. -/
theorem invariantHoldsAtReset : Obligations.InvariantHoldsAtReset where
  arenaWf := rfl
  memWf := rfl
  unitsFit := nofun
  romSize := by decide
  upcInRom := Nat.zero_le _
  lengths := rfl
  params := by unfold Params.wf; decide
  placed := nofun
  increments := nofun
  filters := nofun
  noRecord := fun _ => ⟨rfl, rfl, rfl, rfl⟩
  halted := nofun
  running := fun hp => absurd rfl hp
  tick := nofun
  waves := nofun

end Sys2Proof.Proofs
end

section
/-! SUPPORT. Storage under Q15S (R76): scaling by a power of two is exact, so `enc` truncates the value and
`dec` is the value of the unit. -/

namespace Sys2Proof.F32

open Sys2Proof.Claims

/-- A significand at any scale from 2^-149 on is a magnitude's value, in the range or beyond it. -/
theorem exists_magnitudeUnits_eq_mul_two_pow {n : Nat} (hn : n < 2 ^ 24) (e : Nat) :
    ∃ p, magnitudeUnits p = n * 2 ^ e := by
  induction e generalizing n with
  | zero => exact ⟨_, magnitudeUnits_block hn.le (.inl rfl)⟩
  | succ e ih =>
    by_cases hlow : n < 2 ^ 23
    · obtain ⟨p, hp⟩ := ih (n := 2 * n) (by omega)
      exact ⟨p, by rw [hp, Nat.pow_succ]; ring⟩
    · exact ⟨_, magnitudeUnits_block hn.le (.inr (by omega))⟩

/-- A value that some magnitude has is kept in the range of binary32, and beyond it is an infinity. -/
theorem IsRoundOf.exact {z : Int} {r : F32} {p : Nat} (h : IsRoundOf z r)
    (hp : magnitudeUnits p = z.natAbs) :
    (z.natAbs < 2 ^ 23 * 2 ^ 254 → isFinite r = true ∧ units r = z) ∧
    (2 ^ 23 * 2 ^ 254 ≤ z.natAbs → isInf r = true) := by
  have hmax : magnitudeUnits 0x7F800000 = 2 ^ 23 * 2 ^ 254 := by decide
  obtain ⟨n, m, x, hm, hv, rfl⟩ := h
  have hsigned : z = signFactor (decide (z < 0)) * magnitudeUnits p := by
    rw [hp]
    exact eq_signFactor_mul_natAbs z
  have hv : (signFactor n : ℚ) * exactUnits m x = signFactor (decide (z < 0)) * magnitudeUnits p := by
    rw [← hv]
    exact_mod_cast hsigned
  obtain ⟨hn, hval⟩ := signFactor_mul_inj (exactUnits_pos hm x) (Nat.cast_nonneg _) hv
  have hround := unboundedMagnitude_of_exact hm hval
  rw [← hp, ← hmax, magnitudeUnits_strictMono.lt_iff_lt, magnitudeUnits_strictMono.le_iff_le]
  refine ⟨fun hlt => ?_, fun hle => ?_⟩
  · rw [round_of_lt hm n (hround.symm ▸ hlt), hround, isFinite_iff_magnitude, toNat_pack_mod (by omega),
      units_pack (by omega), hn]
    exact ⟨hlt, hsigned.symm⟩
  · rw [round_of_le hm n (hround.symm ▸ hle)]
    exact isInf_inf n

theorem natAbs_mul_two_pow (z : Int) (k : Nat) : (z * 2 ^ k).natAbs = z.natAbs * 2 ^ k := by
  rw [Int.natAbs_mul, Int.natAbs_pow]
  rfl

theorem natAbs_units (a : F32) : (units a).natAbs = mant a * 2 ^ (bexp a - 1) := by
  have hsign : (signFactor (isNeg a)).natAbs = 1 := by cases isNeg a <;> rfl
  rw [units, signedMant_eq, natAbs_mul_two_pow, Int.natAbs_mul, hsign, Int.natAbs_natCast, Nat.one_mul]

/-- `floor` of the absolute value, from the units of 2^-149. -/
theorem floorNat_eq (a : F32) : floorNat a = (units a).natAbs / 2 ^ 149 := by
  have hexp : 2 ^ bexp a = 2 ^ (bexp a - 1) * 2 := by
    rw [← Nat.pow_succ, Nat.succ_eq_add_one, Nat.sub_add_cancel (bexp_pos a)]
  rw [floorNat, natAbs_units, hexp, ← Nat.mul_assoc, Nat.pow_succ 2 149,
    Nat.mul_div_mul_right _ _ (by decide)]

/-- A flushed subnormal is below every unit from the smallest normal value on (R15). -/
theorem natAbs_units_flush_div (ftz : Bool) (a : F32) {d : Nat} (hd : 23 ≤ d) :
    (units (flush ftz a)).natAbs / 2 ^ d = (units a).natAbs / 2 ^ d := by
  unfold flush
  split
  · rename_i h
    simp only [isSubnormal, Bool.and_eq_true, beq_iff_eq] at h
    obtain ⟨-, he, -⟩ := h
    have hfrac : (units a).natAbs = fracField a := by simp [natAbs_units, mant, bexp, he]
    have hlt : fracField a < 2 ^ d :=
      (fracField_lt a).trans_le (Nat.pow_le_pow_right (by decide) hd)
    rw [hfrac, Nat.div_eq_of_lt hlt, units_zero]
    exact Nat.zero_div _
  · rfl

/-- The product with 32768.0 is exact or overflows (R76). -/
theorem ieeeMul_scale_cases {a : F32} (ha : isFinite a = true) :
    (isFinite (ieeeMul a 0x47000000#32) = true ∧ units (ieeeMul a 0x47000000#32) = units a * 2 ^ 15) ∨
    (isInf (ieeeMul a 0x47000000#32) = true ∧ 2 ^ 23 * 2 ^ 254 ≤ (units a).natAbs * 2 ^ 15) := by
  have hscale : units 0x47000000#32 = 2 ^ 164 := by decide
  by_cases h0 : units a = 0
  · rw [ieeeMul_of_product_zero ha (by decide) (by rw [h0, zero_mul]), units_zero, h0]
    exact .inl ⟨isFinite_of_isZero (isZero_zero _), rfl⟩
  · have hround := isRoundOf_ieeeMul ha (b := 0x47000000#32) (by decide)
      (by rw [hscale]; simpa using h0)
    have hvalue : ((units a * 2 ^ 164 : Int) / (2 ^ 149 : Int) : ℚ) = (units a * 2 ^ 15 : Int) := by
      push_cast
      ring
    rw [hscale, hvalue] at hround
    obtain ⟨p, hp⟩ := exists_magnitudeUnits_eq_mul_two_pow (mant_lt a) (bexp a - 1 + 15)
    rw [Nat.pow_add, ← Nat.mul_assoc, ← natAbs_units, ← natAbs_mul_two_pow] at hp
    obtain ⟨hfin, hinf⟩ := hround.exact hp
    rw [natAbs_mul_two_pow] at hfin hinf
    exact (Nat.lt_or_ge _ _).imp hfin fun hge => ⟨hinf hge, hge⟩

end Sys2Proof.F32

namespace Sys2Proof.Machine

open Sys2Proof.Claims

theorem q15Magnitude_flush (ftz : Bool) (t : F32) (limit : Nat) :
    q15Magnitude (F32.flush ftz t) limit = q15Magnitude t limit := by
  rw [q15Magnitude, F32.isInf_flush, F32.floorNat_eq, F32.natAbs_units_flush_div ftz t (by decide),
    ← F32.floorNat_eq]
  rfl

theorem q15Magnitude_of_isFinite {t : F32} (h : F32.isFinite t = true) (limit : Nat) :
    q15Magnitude t limit = min ((units t).natAbs / 2 ^ 149) limit := by
  rw [q15Magnitude, F32.isInf_of_isFinite h, F32.floorNat_eq]
  rfl

theorem q15Magnitude_of_isInf {t : F32} (h : F32.isInf t = true) (limit : Nat) :
    q15Magnitude t limit = limit := if_pos h

/-- The product with 32768.0 truncated and saturated, whether it is exact or overflows (R76). -/
theorem q15Magnitude_mul {ftz : Bool} {v : F32} (hv : F32.isFinite v = true) {limit : Nat}
    (hl : limit ≤ 2 ^ 15) :
    q15Magnitude (F32.mul ftz v 0x47000000#32) limit = min ((units v).natAbs / 2 ^ 134) limit := by
  have hflush : F32.flush ftz 0x47000000#32 = 0x47000000#32 := F32.flush_of_not_subnormal (by decide)
  rw [← F32.natAbs_units_flush_div ftz v (by decide), F32.mul, q15Magnitude_flush, hflush]
  rw [← F32.isFinite_flush ftz] at hv
  rcases F32.ieeeMul_scale_cases hv with ⟨hfin, hu⟩ | ⟨hinf, hge⟩
  · rw [q15Magnitude_of_isFinite hfin, hu, F32.natAbs_mul_two_pow]
    omega
  · rw [q15Magnitude_of_isInf hinf]
    omega

theorem isNeg_mul_of_isFinite {ftz : Bool} {a b : F32} (ha : F32.isFinite a = true)
    (hb : F32.isFinite b = true) : F32.isNeg (F32.mul ftz a b) = (F32.isNeg a != F32.isNeg b) := by
  rw [← F32.isFinite_flush ftz] at ha hb
  rw [F32.mul, F32.isNeg_flush, F32.ieeeMul_of_isFinite ha hb, F32.isNeg_round, F32.isNeg_flush,
    F32.isNeg_flush]

/-- A value's sign and its magnitude truncated, as one truncated quotient. -/
theorem tdiv_units (v : F32) (d : Nat) : (units v).tdiv d =
    if F32.isNeg v then -((((units v).natAbs / d : Nat)) : Int) else ((units v).natAbs / d : Nat) := by
  rw [F32.units_eq]
  cases F32.isNeg v <;> simp [F32.signFactor, Int.neg_tdiv]

theorem encode32_q15s_of_isNaN {ftz : Bool} {v : F32} (h : F32.isNaN v = true) :
    encode32 .q15s ftz v = 0#32 := if_pos h

theorem encode32_q15s_of_isInf {ftz : Bool} {v : F32} (h : F32.isInf v = true) :
    encode32 .q15s ftz v = if F32.isNeg v then 0x8000#32 else 0x7FFF#32 := by
  have hmul : F32.mul ftz v 0x47000000#32 = v := by
    have hscale : F32.flush ftz 0x47000000#32 = 0x47000000#32 := F32.flush_of_not_subnormal (by decide)
    have hzero : F32.isZero v = false := Bool.eq_false_iff.mpr fun hz => by
      simp [F32.isInf_of_isFinite (F32.isFinite_of_isZero hz)] at h
    rw [F32.mul_of_isInf (F32.isNaN_of_isInf h) (by decide) (.inl h)
      (by rwa [F32.flush_of_isInf h]) (by rw [hscale]; decide),
      show F32.isNeg 0x47000000#32 = false by decide, Bool.bne_false]
    exact (F32.eq_inf_of_isInf h).symm
  have hnan := F32.isNaN_of_isInf h
  simp [encode32, hnan, hmul, q15Magnitude, h]

theorem encode32_q15s_of_isFinite {ftz : Bool} {v : F32} (h : F32.isFinite v = true) :
    ((encode32 .q15s ftz v).toNat : Int) =
      (max (-32768) (min 32767 ((units v).tdiv (2 ^ 134)))) % 2 ^ 16 := by
  have hneg : F32.isNeg (F32.mul ftz v 0x47000000#32) = F32.isNeg v := by
    rw [isNeg_mul_of_isFinite h (by decide)]
    simp [show F32.isNeg 0x47000000#32 = false by decide]
  have htdiv := tdiv_units v (2 ^ 134)
  rw [Nat.cast_pow, Nat.cast_ofNat] at htdiv
  rw [htdiv]
  simp only [encode32, F32.isNaN_of_isFinite h, hneg]
  rw [q15Magnitude_mul h (by decide), q15Magnitude_mul h (by decide)]
  generalize (units v).natAbs / 2 ^ 134 = q
  cases F32.isNeg v
  · simp only [Bool.false_eq_true, if_false, BitVec.toNat_ofNat]
    omega
  · simp only [Bool.false_eq_true, if_false, if_true, BitVec.toNat_ofNat]
    omega

/-- The exact value of a decoded unit. -/
theorem decode32_q15s (u : Word) : F32.isFinite (decode32 .q15s u) = true ∧
    units (decode32 .q15s u) = (u.extractLsb' 0 16).toInt * 2 ^ 134 := by
  have hwidth : u.setWidth 16 = u.extractLsb' 0 16 := by
    apply BitVec.eq_of_toNat_eq
    simp
  have hlo := BitVec.le_toInt (u.extractLsb' 0 16)
  have hhi := BitVec.toInt_lt (x := u.extractLsb' 0 16)
  unfold decode32
  dsimp only
  rw [hwidth]
  generalize (u.extractLsb' 0 16).toInt = n at *
  by_cases h0 : n = 0
  · subst h0
    decide
  · have hround : F32.IsRoundOf (n * 2 ^ 134 : Int) (F32.round (decide (n < 0)) n.natAbs 135) := by
      refine ⟨_, _, _, Int.natAbs_ne_zero.mpr h0, ?_, rfl⟩
      have hsign : (n : ℚ) = F32.signFactor (decide (n < 0)) * (n.natAbs : ℚ) := by
        rw [← Int.cast_natCast, ← Int.cast_mul, ← F32.eq_signFactor_mul_natAbs]
      rw [F32.exactUnits, ← mul_assoc, ← hsign]
      push_cast
      norm_num
    obtain ⟨p, hp⟩ := F32.exists_magnitudeUnits_eq_mul_two_pow (n := n.natAbs) (by omega) 134
    rw [← F32.natAbs_mul_two_pow] at hp
    obtain ⟨hfin, -⟩ := hround.exact hp
    rw [F32.natAbs_mul_two_pow] at hfin
    exact hfin (by omega)

end Sys2Proof.Machine
end

section
/-! SUPPORT. The lines in the arena (R72 to R74), and the cells of frame memory the host and the engine
reach (R82, R271, R502). -/

namespace Sys2Proof.Machine

open Sys2Proof.Claims

/-! The regions of the lines, and ageing. -/

/-- In declared order each line's region ends before the next begins. -/
theorem region_before (i j : LineId) (h : i < j) :
    lengthsBefore lineLengths i + lineLengths[i] ≤ lengthsBefore lineLengths j := by
  revert i j
  decide

theorem region_end_le (i : LineId) : lengthsBefore lineLengths i + lineLengths[i] ≤ 16375 := by
  revert i
  decide

/-- One sample on and one offset more is the same place in the line (R31). -/
theorem nextWp_add_succ {s : State} {i : LineId} (hpos : 0 < s.len[i]) (k : Nat) :
    (s.nextWp i + (k + 1)) % s.len[i] = (s.wp[i] + k) % s.len[i] := by
  have hturn : s.wp[i] + s.len[i] - 1 + (k + 1) = s.wp[i] + k + s.len[i] := by omega
  rw [State.nextWp, Nat.mod_add_mod, hturn, Nat.add_mod_right]

section
variable {s t : State}

/-- A completed START moves every unit one offset on (R31, R73). -/
theorem cell_of_exec_start (h : exec .start s = .next t) (hopen : s.tickOpen = false)
    (hdone : t.tickOpen = true) (i : LineId) (hpos : 0 < s.len[i]) :
    t.len = s.len ∧ ∀ k, t.cell i (k + 1) = s.cell i k := by
  rcases execStart_next h with ⟨ho, -⟩ | ⟨-, -, rfl⟩ | ⟨-, -, rfl⟩
  · simp [hopen] at ho
  · simp [hopen] at hdone
  · refine ⟨rfl, fun k => ?_⟩
    have hwp : s.openTick.advance.wp[i] = s.nextWp i := by simp
    rw [State.cell, hwp]
    exact congrArg (s.base[i] + ·) (nextWp_add_succ hpos k)

/-- After `m` STARTs every unit is `m` offsets on, modulo the length (R73). -/
theorem cell_of_ticksLater {m : Nat} (h : TicksLater m s t) (i : LineId) (hpos : 0 < s.len[i]) :
    t.len = s.len ∧ ∀ k, t.cell i (k + m) = s.cell i k := by
  induction m generalizing t with
  | zero =>
    obtain rfl := h
    exact ⟨rfl, fun _ => rfl⟩
  | succ m ih =>
    obtain ⟨u, v, hu, hwp, hbase, hlen, hopen, hexec, hdone⟩ := h
    obtain ⟨hul, hcell⟩ := ih hu
    have hvl : v.len = s.len := hlen.trans hul
    obtain ⟨htl, hstart⟩ := cell_of_exec_start hexec hopen hdone i (hvl ▸ hpos)
    refine ⟨htl.trans hvl, fun k => ?_⟩
    calc t.cell i (k + (m + 1)) = v.cell i (k + m) := hstart (k + m)
      _ = u.cell i (k + m) := by rw [State.cell, State.cell, hwp, hbase, hlen]
      _ = s.cell i k := hcell k

end

section
variable {s t : State} (hs : s.linesPlaced)
include hs

/-- A placed line's region is the one of its length and the lengths before it. -/
theorem State.linesPlaced.region_eq (i : LineId) :
    s.base[i] = lengthsBefore lineLengths i ∧ s.len[i] = lineLengths[i] := by
  obtain ⟨hlen, hbase, -⟩ := hs
  exact ⟨hbase i, by rw [hlen]⟩

theorem State.linesPlaced.line_end_le (i : LineId) : s.base[i] + s.len[i] ≤ 16375 := by
  obtain ⟨hb, hl⟩ := hs.region_eq i
  rw [hb, hl]
  exact region_end_le i

theorem State.linesPlaced.len_pos (i : LineId) : 0 < s.len[i] := by
  obtain ⟨-, -, hwp⟩ := hs
  exact Nat.zero_lt_of_lt (hwp i)

/-- A cell of a line lies in the line's region, whatever the offset (R74). -/
theorem State.linesPlaced.cell_in_region (i : LineId) (k : Nat) :
    s.base[i] ≤ s.cell i k ∧ s.cell i k < s.base[i] + s.len[i] :=
  ⟨Nat.le_add_right _ _, Nat.add_lt_add_left (Nat.mod_lt _ (hs.len_pos i)) _⟩

theorem State.linesPlaced.cell_lt_arenaUnits (i : LineId) (k : Nat) : s.cell i k < arenaUnits :=
  calc s.cell i k < s.base[i] + s.len[i] := (hs.cell_in_region i k).2
    _ ≤ 16375 := hs.line_end_le i
    _ ≤ arenaUnits := by decide

theorem State.linesPlaced.cell_lt_of_line_lt {i j : LineId} (h : i < j) (k l : Nat) :
    s.cell i k < s.cell j l := by
  obtain ⟨hbi, hli⟩ := hs.region_eq i
  obtain ⟨hbj, -⟩ := hs.region_eq j
  calc s.cell i k < s.base[i] + s.len[i] := (hs.cell_in_region i k).2
    _ ≤ s.base[j] := by rw [hbi, hli, hbj]; exact region_before i j h
    _ ≤ s.cell j l := (hs.cell_in_region j l).1

/-- Cells of two lines differ (R74). -/
theorem State.linesPlaced.cell_ne_of_line_ne {i j : LineId} (h : i ≠ j) (k l : Nat) :
    s.cell i k ≠ s.cell j l := by
  rcases lt_or_gt_of_ne h with h | h
  · exact (hs.cell_lt_of_line_lt h k l).ne
  · exact (hs.cell_lt_of_line_lt h l k).ne'

omit hs in
/-- Inside a line an offset is one unit (R72). -/
theorem offset_eq_of_cell_eq {i : LineId} {k l : Nat} (hk : k < s.len[i]) (hl : l < s.len[i])
    (h : s.cell i k = s.cell i l) : k = l :=
  (Nat.ModEq.add_left_cancel' s.wp[i] (Nat.add_left_cancel h)).eq_of_lt_of_lt hk hl

/-- Another offset of the lines is another cell. -/
theorem State.linesPlaced.cell_ne_of_ne {i j : LineId} {k l : Nat} (hk : k < s.len[i]) (hl : l < s.len[j])
    (h : j ≠ i ∨ l ≠ k) : s.cell j l ≠ s.cell i k := by
  by_cases hij : j = i
  · subst hij
    have hlk : l ≠ k := h.resolve_left (not_not_intro rfl)
    exact fun heq => hlk (offset_eq_of_cell_eq hl hk heq)
  · exact hs.cell_ne_of_line_ne hij l k

/-- A completed store changes the sample at the offset written and no other (R72, R74, R512). -/
theorem State.linesPlaced.sample_of_storeAcc {line : LineId} {k : Nat} {acc : F32}
    (hw : Arena.wf s.arena = true) (hk : k < s.len[line]) (h : storeAcc line k acc s = .next t) :
    sample line k t = decode32 s.cfg.storeFmt (encode32 s.cfg.storeFmt s.cfg.ftz s.acc) ∧
    ∀ (j : LineId) (l : Nat), l < s.len[j] → (j ≠ line ∨ l ≠ k) → sample j l t = sample j l s := by
  obtain ⟨hcells, -⟩ := (Arena.wf_iff _).mp hw
  obtain ⟨-, rfl⟩ := storeAcc_next h
  exact ⟨congrArg (decode32 s.cfg.storeFmt) (readCell_writeCell_same hcells _ _),
    fun j l hl hne => congrArg (decode32 s.cfg.storeFmt)
      (readCell_writeCell_other hcells _ (hs.cell_ne_of_ne hk hl hne))⟩

end

/-! An instruction that advances UPC took no fault. -/

section
variable {s t : State}

theorem not_raise_of_upc {c : FaultCause} (hu : t.upc = s.upc + 1) : t ≠ s.raise c := by
  rintro rfl
  simp at hu

theorem storeAcc_of_execWrap {line : LineId} {coef : Coef} (h : exec (.wrap line coef) s = .next t)
    (hu : t.upc = s.upc + 1) : ∃ acc, storeAcc line 0 acc s = .next t := by
  rcases guarded_next h with ⟨-, h⟩ | ⟨-, h⟩
  · split at h
    · exact ⟨_, h⟩
    · exact absurd (Host.Outcome.next.inj h).symm (not_raise_of_upc hu)
  · exact absurd h (not_raise_of_upc hu)

theorem storeAcc_of_execWr {line : LineId} {off : Offset} {coef : Coef}
    (h : exec (.wr line off coef) s = .next t) (hu : t.upc = s.upc + 1) :
    F32.floorNat (s.offsetR line off) < s.len[line] ∧
      ∃ acc, storeAcc line (F32.floorNat (s.offsetR line off)) acc s = .next t := by
  rcases guarded_next h with ⟨-, h⟩ | ⟨-, h⟩
  · split at h
    · rename_i k hk
      obtain ⟨-, hl, rfl⟩ := writeOffset_eq_some.mp hk
      exact ⟨hl, _, h⟩
    · exact absurd (Host.Outcome.next.inj h).symm (not_raise_of_upc hu)
  · exact absurd h (not_raise_of_upc hu)

end

end Sys2Proof.Machine
end

section
/-! SUPPORT. Where the model does not stop, and which bytes of frame memory a step of the engine or of the
host reaches (R74, R82, R271, R502). -/

namespace Sys2Proof.Machine

open Sys2Proof.Claims

variable {s t : State} {f : Fault}

/-! The frame window. -/

theorem not_overlapsRegisterWindow_iff (p : Params) (base n : Nat) :
    ¬ OverlapsRegisterWindow p base n ↔ base + n ≤ p.regBase ∨ p.regBase + 256 ≤ base := by
  unfold OverlapsRegisterWindow
  omega

/-- The platform's own predicate on a range, the laws of R300 aside (entry 11). -/
def platformAllows (w : FrameWindow) (base n : Nat) : Bool :=
  match w with
  | .all => true
  | .ranges allowed => allowed.any fun r => decide (r.1 ≤ base) && decide (base + n ≤ r.2)
  | .platform k => Config.platformWindow k base n

theorem platformAllows_ranges (allowed : List (Nat × Nat)) (base n : Nat) :
    platformAllows (.ranges allowed) base n = true ↔ ∃ r ∈ allowed, r.1 ≤ base ∧ base + n ≤ r.2 := by
  simp [platformAllows]

theorem frameWindowHolds_iff_platformAllows (p : Params) (base n : Nat) :
    Params.frameWindowHolds p base n = true ↔
      n = 0 ∨ (platformAllows p.frameWindow base n = true ∧ ¬ OverlapsRegisterWindow p base n) := by
  rw [frameWindowHolds_iff, not_overlapsRegisterWindow_iff]
  exact Iff.rfl

theorem frameWindowHolds_of_clear {p : Params} {base n : Nat} (hn : 0 < n)
    (h : ¬ OverlapsRegisterWindow p base n) :
    Params.frameWindowHolds p base n = platformAllows p.frameWindow base n := by
  rw [Bool.eq_iff_iff, frameWindowHolds_iff_platformAllows]
  simp [h, Nat.pos_iff_ne_zero.mp hn]

/-! The host's byte accesses. -/

theorem inWindow_eq_false {a : Nat} (h : a < s.cfg.regBase ∨ s.cfg.regBase + 256 ≤ a) :
    s.inWindow a = false := by
  simp only [State.inWindow, Bool.and_eq_false_iff, decide_eq_false_iff_not]
  omega

theorem ownsByte_eq_false {a : Nat}
    (h : s.phase = .idle ∨ a < s.blkBase.toNat ∨ s.blkBase.toNat + 8 * s.blkCount.toNat ≤ a) :
    s.ownsByte a = false := by
  rcases h with h | h
  · simp [State.ownsByte, State.busy, h]
  · simp only [State.ownsByte, Bool.and_eq_false_iff, decide_eq_false_iff_not]
    omega

/-- The host's access is made where the byte exists and is neither the window's nor the block's. -/
theorem withFrameByte_of_free {a : Nat} (access : State) (ha : a < 2 ^ 32) (hw : s.inWindow a = false)
    (ho : s.ownsByte a = false) : withFrameByte a s access = .next access := by
  rw [withFrameByte, if_neg (Nat.not_le_of_lt ha), hw, ho]
  rfl

theorem withFrameByte_ne_fault (a : Nat) (access : State) : withFrameByte a s access ≠ .fault f := by
  rcases withFrameByte_cases a s access with ⟨-, h⟩ | ⟨-, -, h⟩ | ⟨-, -, -, h⟩ | ⟨-, -, -, h⟩ <;>
    rw [h] <;> nofun

/-! No instruction stops the model when the lines are placed and the current frame exists. -/

section
variable (hs : s.linesPlaced)
include hs

theorem readUnit_of_linesPlaced (line : LineId) (k : Nat) : ∃ v, s.readUnit line k = some v :=
  ⟨_, readUnit_eq (hs.cell_lt_arenaUnits line k)⟩

/-- A read of a placed line needs no unit that does not exist (R74). -/
theorem readLine_ne_noUnit (line : LineId) (off : F32) (a : Nat) : s.readLine line off ≠ .noUnit a := by
  obtain ⟨v, hv⟩ := readUnit_of_linesPlaced hs line (F32.floorNat off)
  obtain ⟨v', hv'⟩ := readUnit_of_linesPlaced hs line (F32.floorNat off + 1)
  rcases readLine_cases line off s with ⟨-, h⟩ | ⟨-, -, ⟨-, h⟩ | ⟨-, h⟩⟩ | ⟨-, -, ⟨-, h⟩ | ⟨-, h⟩⟩ <;>
    rw [h]
  case inr.inl.inr => simp [State.readExact, hv]
  case inr.inr.inr => simp [State.readBetween, hv, hv']
  all_goals nofun

theorem accumulateRead_ne_fault (line : LineId) (off g : F32) : accumulateRead line off g s ≠ .fault f := by
  cases h : s.readLine line off with
  | value v => rw [accumulateRead_value h]; nofun
  | outOfRange => rw [accumulateRead_outOfRange h]; nofun
  | noUnit a => exact absurd h (readLine_ne_noUnit hs line off a)

theorem storeAcc_ne_fault (line : LineId) (k : Nat) (acc : F32) : storeAcc line k acc s ≠ .fault f := by
  rw [storeAcc_inside (hs.cell_lt_arenaUnits line k)]
  nofun

end

theorem withScalar_ne_fault {r : ScalarReg} {use : F32 → Result} (h : ∀ v, use v ≠ .fault f) :
    withScalar r s use ≠ .fault f := by
  cases hv : s.sv[r]
  · rw [withScalar_invalid hv]
    nofun
  · rw [withScalar_valid hv]
    exact h _

theorem guarded_ne_fault {run : Result} (h : run ≠ .fault f) : guarded s run ≠ .fault f := by
  intro hg
  obtain ⟨-, hrun⟩ := guarded_fault hg
  exact h hrun

theorem execStart_ne_fault : execStart s ≠ .fault f := by
  unfold execStart
  split
  · nofun
  · split <;> nofun

/-- An instruction reaches only units and frames that exist (R74, R82). -/
theorem exec_ne_fault (hs : s.linesPlaced) (ha : s.frameAddr + 8 ≤ 2 ^ 32) (i : Instr) :
    exec i s ≠ .fault f := by
  cases i with
  | nop => nofun
  | start => exact execStart_ne_fault
  | rdin src coef => exact guarded_ne_fault nofun
  | rd line off coef => exact guarded_ne_fault (accumulateRead_ne_fault hs _ _ _)
  | rdm line base depth lfo coef => exact guarded_ne_fault (accumulateRead_ne_fault hs _ _ _)
  | wrap line coef =>
    refine guarded_ne_fault ?_
    split
    · exact storeAcc_ne_fault hs _ _ _
    · nofun
  | wr line off coef =>
    refine guarded_ne_fault ?_
    split
    · exact storeAcc_ne_fault hs _ _ _
    · nofun
  | wrout reg coef => exact guarded_ne_fault nofun
  | ld reg => exact guarded_ne_fault (withScalar_ne_fault nofun)
  | lp reg coef => exact guarded_ne_fault (withScalar_ne_fault nofun)
  | xfade ch reg => exact guarded_ne_fault (withScalar_ne_fault nofun)
  | eof =>
    refine guarded_ne_fault ?_
    rw [if_pos ha]
    nofun

theorem fetchFrame_ne_fault (ha : s.frameAddr + 8 ≤ 2 ^ 32) : fetchFrame s ≠ .fault f := by
  rw [fetchFrame, if_pos ha]
  nofun

theorem runWord_ne_fault (h : ∀ i, exec i s ≠ .fault f) : runWord s ≠ .fault f := by
  unfold runWord
  split
  · nofun
  · split
    · nofun
    · exact h _

/-! The current frame of a running block. -/

/-- The current frame lies inside the block that PROCESS accepted (R82, R271). -/
theorem frame_in_block (h : s.blockRunning) :
    s.frameAddr + 8 ≤ s.blkBase.toNat + 8 * s.blkCount.toNat ∧ s.frameAddr + 8 ≤ 2 ^ 32 := by
  obtain ⟨-, -, -, hspace, -, hidx, -⟩ := h
  unfold State.frameAddr
  omega

/-- The current frame is clear of the register window, since the block is (R300). -/
theorem frame_clear_of_window (h : s.blockRunning) : ¬ OverlapsRegisterWindow s.cfg s.frameAddr 8 := by
  obtain ⟨hin, -⟩ := frame_in_block h
  obtain ⟨-, -, -, -, hwin, hidx, -⟩ := h
  rcases (frameWindowHolds_iff_platformAllows _ _ _).mp hwin with hempty | ⟨-, hclear⟩
  · omega
  · rw [not_overlapsRegisterWindow_iff] at hclear ⊢
    unfold State.frameAddr at hin ⊢
    omega

theorem engineStep_ne_fault (h : s.Inv) : engineStep s ≠ .fault f := by
  unfold engineStep
  split
  · nofun
  · split
    · nofun
    · rename_i hp
      obtain ⟨-, hspace⟩ := frame_in_block (h.running (by simp [hp]))
      exact fetchFrame_ne_fault hspace
    · rename_i hp
      have hb : s.blockRunning := h.running (by simp [hp])
      obtain ⟨-, hspace⟩ := frame_in_block hb
      obtain ⟨hinited, -⟩ := hb
      exact runWord_ne_fault (exec_ne_fault (h.placed hinited) hspace)

/-- No move of the interleaving stops the model (entry 12). -/
theorem takeMove_ne_fault (h : s.Inv) (m : Move) : takeMove m s ≠ .fault f := by
  cases m with
  | engine => exact engineStep_ne_fault h
  | hostRead o =>
    simp only [takeMove]
    split <;> nofun
  | hostWrite o v =>
    simp only [takeMove]
    split <;> nofun
  | frameRead a => exact withFrameByte_ne_fault _ _
  | frameWrite a v => exact withFrameByte_ne_fault _ _
  | reset d => nofun

theorem State.Inv.safe (h : s.Inv) : s.Safe := by
  intro f
  rcases step_cases s with ⟨-, hs⟩ | ⟨m, rest, -, hs⟩ <;> rw [hs]
  · exact engineStep_ne_fault h
  · exact takeMove_ne_fault (h.pop rest) m

/-! What a step of the engine writes to frame memory. -/

/-- A word write leaves the bytes outside its four alone. -/
theorem readCell_writeFrameWord_outside {m : Memory} (hm : Memory.wf m = true) {a b : Nat} (v : Word)
    (hb : b < a ∨ a + 4 ≤ b) : readCell (writeFrameWord m a v) b = readCell m b := by
  rw [readCell_writeFrameWord hm]
  rw [if_neg (by omega), if_neg (by omega), if_neg (by omega), if_neg (by omega)]

/-- EOF writes the eight bytes of the current frame (R271). -/
theorem readCell_closeFrame (h : Memory.wf s.mem = true) {b : Nat}
    (hb : b < s.frameAddr ∨ s.frameAddr + 8 ≤ b) : readCell s.closeFrame.mem b = readCell s.mem b := by
  have hleft := Memory.wf_writeFrameWord h s.frameAddr s.fl
  rw [closeFrame_mem, readCell_writeFrameWord_outside hleft _ (by omega),
    readCell_writeFrameWord_outside h _ (by omega)]

/-- Only EOF writes frame memory. -/
theorem ExecEffect.mem_eq_or (h : ExecEffect s t) : t.mem = s.mem ∨ t = s.closeFrame := by
  cases h with
  | raise c => exact .inl (raise_mem s c)
  | closeFrame => exact .inr rfl
  | _ => exact .inl rfl

/-- A step of the engine that changes frame memory closes a frame (R271, R436). -/
theorem mem_eq_or_of_engineStep (h : engineStep s = .next t) :
    t.mem = s.mem ∨ (s.phase = .run ∧ t = s.closeFrame) := by
  rcases engineStep_next h with ⟨-, rfl⟩ | ⟨-, -, h⟩ | ⟨-, -, -, rfl⟩ | ⟨-, -, _, _, -, -, rfl⟩ |
    ⟨-, hp, _, _, -, -, h⟩
  · exact .inl rfl
  · obtain ⟨-, rfl⟩ := fetchFrame_next h
    exact .inl rfl
  · exact .inl (raise_mem s _)
  · exact .inl (raise_mem s _)
  · exact (execEffect_of_exec h).mem_eq_or.imp_right fun ht => ⟨hp, ht⟩

/-- The engine changes no byte but the current frame's (R83, R271). -/
theorem changed_byte_in_frame (hm : Memory.wf s.mem = true) (h : engineStep s = .next t) {b : Nat}
    (hb : readCell t.mem b ≠ readCell s.mem b) :
    s.phase ≠ .idle ∧ s.frameAddr ≤ b ∧ b < s.frameAddr + 8 := by
  rcases mem_eq_or_of_engineStep h with ht | ⟨hp, rfl⟩
  · exact absurd (by rw [ht]) hb
  · have hin := mt (readCell_closeFrame hm) hb
    exact ⟨by simp [hp], by omega⟩

end Sys2Proof.Machine
end

section
/-! The obligations on the storage and frame memory of spec/20_memory.md. -/

namespace Sys2Proof.Proofs

open Sys2Proof.Machine Sys2Proof.Claims

/-- Settles O46: `enc` on each class of value, and `dec` of the unit's sixteen bits. -/
theorem q15StorageTruncatesAndSaturates : Obligations.Q15StorageTruncatesAndSaturates :=
  ⟨fun _ _ => ⟨encode32_q15s_of_isNaN, encode32_q15s_of_isInf, encode32_q15s_of_isFinite⟩, decode32_q15s⟩

/-- Settles O47: each START moves every unit one offset on, and a whole length is no move at all. -/
theorem samplesAgeByOnePerStart : Obligations.SamplesAgeByOnePerStart := by
  intro m s t i hwp h
  obtain ⟨hlen, hcell⟩ := cell_of_ticksLater h i (Nat.zero_lt_of_lt hwp)
  refine ⟨fun k _ => hcell k, fun hm => ?_⟩
  calc t.cell i 0 = t.cell i (0 + m) := by simp [State.cell, hm, hlen]
    _ = s.cell i 0 := hcell 0

/-- Settles O48, from the regions the lines are placed in. -/
theorem linesNeverOverlap : Obligations.LinesNeverOverlap := by
  intro s hs i j k l hk hl
  obtain ⟨hlo, hhi⟩ := hs.cell_in_region i k
  refine ⟨hs.line_end_le i, hlo, hhi, fun hij => hs.cell_ne_of_line_ne hij k l, ?_⟩
  rintro rfl
  exact offset_eq_of_cell_eq hk hl

/-- Settles O49: a WRAP or WR that advanced UPC is one store, and a store is one cell. -/
theorem storeReachesOneSample : Obligations.StoreReachesOneSample := by
  intro line off coef s t hs hw hu
  refine ⟨fun h => ?_, fun h => ?_⟩
  · obtain ⟨acc, hstore⟩ := storeAcc_of_execWrap h hu
    exact hs.sample_of_storeAcc hw (hs.len_pos line) hstore
  · obtain ⟨hk, acc, hstore⟩ := storeAcc_of_execWr h hu
    exact hs.sample_of_storeAcc hw hk hstore

/-- Settles O59: every unit and frame the engine reaches exists, and only EOF writes frame memory. -/
theorem noStepLeavesTheStorage : Obligations.NoStepLeavesTheStorage := by
  intro s h
  refine ⟨h.safe, fun hp => ?_, fun rest t hturn hstep b hb => ?_⟩
  · have hrun := h.running hp
    obtain ⟨hblock, hspace⟩ := frame_in_block hrun
    have hclear := frame_clear_of_window hrun
    obtain ⟨-, -, -, -, hwin, -, -⟩ := hrun
    exact ⟨hblock, hspace, hwin, hclear⟩
  · rw [step_engineTurn hturn] at hstep
    exact changed_byte_in_frame (s := popped rest s) h.memWf hstep hb

/-- Settles O32, in the three forms of the platform's predicate. -/
theorem frameWindowLaws : Obligations.FrameWindowLaws := by
  intro p base n
  refine ⟨(frameWindowHolds_iff_platformAllows _ _ _).mpr (.inl rfl), fun hn hover => ?_, fun hclear =>
    ⟨fun hall => ?_, fun allowed hw hn => ?_, fun k hw hn => ?_⟩⟩
  · rw [Bool.eq_false_iff, Ne, frameWindowHolds_iff_platformAllows]
    rintro (hzero | ⟨-, hclear⟩)
    · omega
    · exact hclear hover
  · exact (frameWindowHolds_iff_platformAllows _ _ _).mpr (.inr ⟨by rw [hall]; rfl, hclear⟩)
  · rw [frameWindowHolds_of_clear hn hclear, hw, platformAllows_ranges]
  · rw [frameWindowHolds_of_clear hn hclear, hw]
    rfl

/-- Settles O35: the access is made, and the write is the write of one cell. -/
theorem hostFrameAccess : Obligations.HostFrameAccess := by
  intro s a rest hm ha hw hb
  have hfree : ∀ access, withFrameByte a (popped rest s) access = .next access := fun access =>
    withFrameByte_of_free access ha (inWindow_eq_false hw) (ownsByte_eq_false hb)
  refine ⟨fun hmove => ?_, fun v hmove => ⟨_, (step_of_move hmove).trans (hfree _), rfl, ?_, ?_⟩⟩
  · exact (step_of_move hmove).trans (hfree _)
  · exact readCell_writeCell_same hm a v
  · exact fun b hne => readCell_writeCell_other hm v hne

/-- Settles O45: under F32 `enc` and `dec` answer the pattern itself. -/
theorem f32StorageIsTheIdentity : Obligations.F32StorageIsTheIdentity :=
  fun _ _ _ => ⟨rfl, rfl, rfl⟩

end Sys2Proof.Proofs
end

section
/-! SUPPORT. The decoder said once, both ways: a word decodes to an instruction exactly when its fields are
the instruction's operands (R102 to R111), and that is exactly when it is the instruction's encoding. -/

namespace Sys2Proof

variable {w : Word} {i : Instr}

/-! Each format's fields, in the order the spec lists them. -/

/-- `omode` and `K` of format R hold the offset operand (R103, R111). -/
def Offset.FieldsIn (w : Word) : Offset → Prop
  | .imm k => bits w 19 2 = 0 ∧ bits w 0 13 = k
  | .scaled k => bits w 19 2 = 1 ∧ bits w 0 13 = k
  | .tail => bits w 19 2 = 2 ∧ bits w 0 13 = 0

/-- Bits 27:0 hold the operands, and the fields that must be zero are zero (R102 to R109). -/
def Instr.FieldsIn (w : Word) : Instr → Prop
  | .nop => bits w 0 28 = 0
  | .start => bits w 0 28 = 0
  | .rdin src c => bits w 24 4 = src.code ∧ bits w 21 3 = c.code ∧ bits w 0 21 = 0
  | .rd line off c =>
    bits w 24 4 = line.val ∧ bits w 21 3 = c.code ∧ bits w 13 6 = 0 ∧ off.FieldsIn w
  | .rdm line base depth lfo c =>
    bits w 24 4 = line.val ∧ bits w 21 3 = c.code ∧ bits w 20 1 = lfo.val ∧
      bits w 13 7 = depth ∧ bits w 0 13 = base
  | .wrap line c => bits w 24 4 = line.val ∧ bits w 21 3 = c.code ∧ bits w 0 21 = 0
  | .wr line off c =>
    bits w 24 4 = line.val ∧ bits w 21 3 = c.code ∧ bits w 13 6 = 0 ∧ off.FieldsIn w
  | .wrout r c => bits w 24 4 = r.val ∧ bits w 21 3 = c.code ∧ bits w 0 21 = 0
  | .ld r => bits w 24 4 = r.val ∧ bits w 21 3 = 0 ∧ bits w 0 21 = 0
  | .lp r c => bits w 24 4 = r.val ∧ bits w 21 3 = c.code ∧ bits w 0 21 = 0
  | .xfade ch r => bits w 24 4 = ch.code ∧ bits w 20 4 = r.val ∧ bits w 0 20 = 0
  | .eof => bits w 0 28 = 0

/-! The field readers. -/

theorem lineField_eq_some {l : LineId} (h : lineField w = some l) : bits w 24 4 = l.val := by
  unfold lineField at h
  split at h
  · exact congrArg Fin.val (Option.some.inj h)
  · cases h

theorem lineField_eq_none_iff : lineField w = none ↔ 9 < bits w 24 4 := by
  unfold lineField
  split <;> simp <;> omega

theorem scalarField_eq_some {lo : Nat} {r : ScalarReg} (h : scalarField w lo = some r) :
    bits w lo 4 = r.val := by
  unfold scalarField at h
  split at h
  · exact congrArg Fin.val (Option.some.inj h)
  · cases h

theorem scalarField_eq_none_iff {lo : Nat} : scalarField w lo = none ↔ 3 < bits w lo 4 := by
  unfold scalarField
  split <;> simp <;> omega

/-- The `csel` field is the code of the coefficient it selects (R110). -/
theorem bits_eq_code_coefField (w : Word) : bits w 21 3 = (coefField w).code :=
  (Coef.code_ofCode (bits_lt w 21 3)).symm

/-! What each format decodes to, and when it refuses the word. -/

theorem decodeN_eq_ok_iff {j : Instr} : decodeN j w = .ok i ↔ i = j ∧ bits w 0 28 = 0 := by
  unfold decodeN
  split <;> simp [*, eq_comm (a := i)]

theorem decodeN_illegal_iff {j : Instr} : (∃ why, decodeN j w = .illegal why) ↔ bits w 0 28 ≠ 0 := by
  unfold decodeN
  split <;> simp [*]

theorem decodeI_eq_ok_iff :
    decodeI w = .ok i ↔ ∃ src c, i = .rdin src c ∧ (Instr.rdin src c).FieldsIn w := by
  have hc := bits_eq_code_coefField w
  constructor
  · intro h
    unfold decodeI at h
    split at h
    · cases h
    · have hz : bits w 0 21 = 0 := not_not.mp ‹_›
      split at h
      · cases h; exact ⟨_, _, rfl, ‹_›, hc, hz⟩
      · cases h; exact ⟨_, _, rfl, ‹_›, hc, hz⟩
      · cases h; exact ⟨_, _, rfl, ‹_›, hc, hz⟩
      · cases h
  · rintro ⟨src, c, rfl, hs, hc, hz⟩
    cases src <;> simp [decodeI, hz, hs, InSrc.code, coefField_eq hc]

theorem decodeI_illegal_iff :
    (∃ why, decodeI w = .illegal why) ↔ 2 < bits w 24 4 ∨ bits w 0 21 ≠ 0 := by
  unfold decodeI
  split
  · simp [*]
  · split <;> simp_all; omega

theorem decodeR_eq_ok_iff {mk : LineId → Offset → Coef → Instr} :
    decodeR mk w = .ok i ↔ ∃ line off c, i = mk line off c ∧
      bits w 24 4 = line.val ∧ bits w 21 3 = c.code ∧ bits w 13 6 = 0 ∧ off.FieldsIn w := by
  have hc := bits_eq_code_coefField w
  constructor
  · intro h
    unfold decodeR at h
    split at h
    · cases h
    · have hl := lineField_eq_some ‹_›
      split at h
      · cases h
      · have hz : bits w 13 6 = 0 := not_not.mp ‹_›
        split at h
        · cases h; exact ⟨_, .imm _, _, rfl, hl, hc, hz, ‹_›, rfl⟩
        · cases h; exact ⟨_, .scaled _, _, rfl, hl, hc, hz, ‹_›, rfl⟩
        · split at h
          · cases h; exact ⟨_, .tail, _, rfl, hl, hc, hz, ‹_›, ‹_›⟩
          · cases h
        · cases h
  · rintro ⟨line, off, c, rfl, hl, hc, hz, ho⟩
    cases off <;> obtain ⟨hm, hk⟩ := ho <;>
      simp [decodeR, lineField_eq hl, coefField_eq hc, hz, hm, hk]

theorem decodeR_illegal_iff {mk : LineId → Offset → Coef → Instr} :
    (∃ why, decodeR mk w = .illegal why) ↔
      9 < bits w 24 4 ∨ bits w 19 2 = 3 ∨ bits w 13 6 ≠ 0 ∨ (bits w 19 2 = 2 ∧ bits w 0 13 ≠ 0) := by
  have hm := bits_lt w 19 2
  unfold decodeR
  rw [← lineField_eq_none_iff]
  split
  · simp [*]
  · split
    · simp [*]
    · split
      · simp_all
      · simp_all
      · split <;> simp_all
      · have hmode : bits w 19 2 = 3 := by grind
        simp [hmode]

theorem decodeM_eq_ok_iff :
    decodeM w = .ok i ↔ ∃ line base depth lfo c, i = .rdm line base depth lfo c ∧
      (Instr.rdm line base depth lfo c).FieldsIn w := by
  have hc := bits_eq_code_coefField w
  have hlfo : bits w 20 1 = (if bits w 20 1 = 0 then 0 else 1 : LfoId).val := by
    have := bits_lt w 20 1
    split <;> simp <;> omega
  constructor
  · intro h
    unfold decodeM at h
    split at h
    · cases h
    · cases h
      exact ⟨_, _, _, _, _, rfl, lineField_eq_some ‹_›, hc, hlfo, rfl, rfl⟩
  · rintro ⟨line, base, depth, lfo, c, rfl, hl, hc, hf, rfl, rfl⟩
    simp only [decodeM, lineField_eq hl, coefField_eq hc, Fin.ext (hlfo.symm.trans hf)]

theorem decodeM_illegal_iff : (∃ why, decodeM w = .illegal why) ↔ 9 < bits w 24 4 := by
  unfold decodeM
  rw [← lineField_eq_none_iff]
  split <;> simp [*]

theorem decodeA_eq_ok_iff :
    decodeA w = .ok i ↔ ∃ line c, i = .wrap line c ∧ (Instr.wrap line c).FieldsIn w := by
  have hc := bits_eq_code_coefField w
  constructor
  · intro h
    unfold decodeA at h
    split at h
    · cases h
    · split at h
      · cases h; exact ⟨_, _, rfl, lineField_eq_some ‹_›, hc, ‹_›⟩
      · cases h
  · rintro ⟨line, c, rfl, hl, hc, hz⟩
    simp [decodeA, lineField_eq hl, coefField_eq hc, hz]

theorem decodeA_illegal_iff :
    (∃ why, decodeA w = .illegal why) ↔ 9 < bits w 24 4 ∨ bits w 0 21 ≠ 0 := by
  unfold decodeA
  rw [← lineField_eq_none_iff]
  split
  · simp [*]
  · split <;> simp [*]

theorem decodeS_eq_ok_iff {mk : ScalarReg → Coef → Instr} :
    decodeS mk w = .ok i ↔ ∃ r c, i = mk r c ∧
      bits w 24 4 = r.val ∧ bits w 21 3 = c.code ∧ bits w 0 21 = 0 := by
  have hc := bits_eq_code_coefField w
  constructor
  · intro h
    unfold decodeS at h
    split at h
    · cases h
    · split at h
      · cases h; exact ⟨_, _, rfl, scalarField_eq_some ‹_›, hc, ‹_›⟩
      · cases h
  · rintro ⟨r, c, rfl, hr, hc, hz⟩
    simp [decodeS, scalarField_eq hr, coefField_eq hc, hz]

theorem decodeS_illegal_iff {mk : ScalarReg → Coef → Instr} :
    (∃ why, decodeS mk w = .illegal why) ↔ 3 < bits w 24 4 ∨ bits w 0 21 ≠ 0 := by
  unfold decodeS
  rw [← scalarField_eq_none_iff]
  split
  · simp [*]
  · split <;> simp [*]

theorem decodeLd_eq_ok_iff :
    decodeLd w = .ok i ↔ ∃ r, i = .ld r ∧ (Instr.ld r).FieldsIn w := by
  constructor
  · intro h
    unfold decodeLd at h
    split at h
    · cases h
    · split at h
      · cases h
      · split at h
        · cases h; exact ⟨_, rfl, scalarField_eq_some ‹_›, ‹_›, not_not.mp ‹_›⟩
        · cases h
  · rintro ⟨r, rfl, hr, hc, hz⟩
    simp [decodeLd, scalarField_eq hr, hc, hz]

theorem decodeLd_illegal_iff :
    (∃ why, decodeLd w = .illegal why) ↔
      3 < bits w 24 4 ∨ bits w 0 21 ≠ 0 ∨ bits w 21 3 ≠ 0 := by
  unfold decodeLd
  rw [← scalarField_eq_none_iff]
  split
  · simp [*]
  · split
    · simp [*]
    · split <;> simp [*]

theorem decodeX_eq_ok_iff :
    decodeX w = .ok i ↔ ∃ ch r, i = .xfade ch r ∧ (Instr.xfade ch r).FieldsIn w := by
  constructor
  · intro h
    unfold decodeX at h
    split at h
    · cases h
    · have hr := scalarField_eq_some ‹_›
      split at h
      · cases h
      · have hz : bits w 0 20 = 0 := not_not.mp ‹_›
        split at h
        · cases h; exact ⟨_, _, rfl, ‹_›, hr, hz⟩
        · cases h; exact ⟨_, _, rfl, ‹_›, hr, hz⟩
        · cases h
  · rintro ⟨ch, r, rfl, hch, hr, hz⟩
    cases ch <;> simp [decodeX, scalarField_eq hr, hz, hch, Channel.code]

theorem decodeX_illegal_iff :
    (∃ why, decodeX w = .illegal why) ↔
      1 < bits w 24 4 ∨ 3 < bits w 20 4 ∨ bits w 0 20 ≠ 0 := by
  unfold decodeX
  rw [← scalarField_eq_none_iff]
  split
  · simp [*]
  · split
    · simp [*]
    · split <;> simp_all; omega

/-! The decoder. -/

/-- The opcode field and the operand fields of a legal word. -/
theorem fieldsIn_of_decode (h : decode w = .ok i) : bits w 28 4 = i.opcode ∧ i.FieldsIn w := by
  unfold decode at h
  split at h
  · obtain ⟨rfl, hf⟩ := decodeN_eq_ok_iff.mp h
    exact ⟨‹_›, hf⟩
  · obtain ⟨rfl, hf⟩ := decodeN_eq_ok_iff.mp h
    exact ⟨‹_›, hf⟩
  · obtain ⟨src, c, rfl, hf⟩ := decodeI_eq_ok_iff.mp h
    exact ⟨‹_›, hf⟩
  · obtain ⟨line, off, c, rfl, hf⟩ := decodeR_eq_ok_iff.mp h
    exact ⟨‹_›, hf⟩
  · obtain ⟨line, base, depth, lfo, c, rfl, hf⟩ := decodeM_eq_ok_iff.mp h
    exact ⟨‹_›, hf⟩
  · obtain ⟨line, c, rfl, hf⟩ := decodeA_eq_ok_iff.mp h
    exact ⟨‹_›, hf⟩
  · obtain ⟨line, off, c, rfl, hf⟩ := decodeR_eq_ok_iff.mp h
    exact ⟨‹_›, hf⟩
  · obtain ⟨r, c, rfl, hf⟩ := decodeS_eq_ok_iff.mp h
    exact ⟨‹_›, hf⟩
  · obtain ⟨r, rfl, hf⟩ := decodeLd_eq_ok_iff.mp h
    exact ⟨‹_›, hf⟩
  · obtain ⟨r, c, rfl, hf⟩ := decodeS_eq_ok_iff.mp h
    exact ⟨‹_›, hf⟩
  · obtain ⟨ch, r, rfl, hf⟩ := decodeX_eq_ok_iff.mp h
    exact ⟨‹_›, hf⟩
  · obtain ⟨rfl, hf⟩ := decodeN_eq_ok_iff.mp h
    exact ⟨‹_›, hf⟩
  · cases h

/-- The fields settle what a word decodes to. -/
theorem decode_of_fieldsIn (hop : bits w 28 4 = i.opcode) (h : i.FieldsIn w) : decode w = .ok i := by
  cases i with
  | nop => exact (decode_nop hop).trans (decodeN_eq_ok_iff.mpr ⟨rfl, h⟩)
  | start => exact (decode_start hop).trans (decodeN_eq_ok_iff.mpr ⟨rfl, h⟩)
  | rdin src c => exact (decode_rdin hop).trans (decodeI_eq_ok_iff.mpr ⟨src, c, rfl, h⟩)
  | rd line off c => exact (decode_rd hop).trans (decodeR_eq_ok_iff.mpr ⟨line, off, c, rfl, h⟩)
  | rdm line base depth lfo c =>
    exact (decode_rdm hop).trans (decodeM_eq_ok_iff.mpr ⟨line, base, depth, lfo, c, rfl, h⟩)
  | wrap line c => exact (decode_wrap hop).trans (decodeA_eq_ok_iff.mpr ⟨line, c, rfl, h⟩)
  | wr line off c => exact (decode_wr hop).trans (decodeR_eq_ok_iff.mpr ⟨line, off, c, rfl, h⟩)
  | wrout r c => exact (decode_wrout hop).trans (decodeS_eq_ok_iff.mpr ⟨r, c, rfl, h⟩)
  | ld r => exact (decode_ld hop).trans (decodeLd_eq_ok_iff.mpr ⟨r, rfl, h⟩)
  | lp r c => exact (decode_lp hop).trans (decodeS_eq_ok_iff.mpr ⟨r, c, rfl, h⟩)
  | xfade ch r => exact (decode_xfade hop).trans (decodeX_eq_ok_iff.mpr ⟨ch, r, rfl, h⟩)
  | eof => exact (decode_eof hop).trans (decodeN_eq_ok_iff.mpr ⟨rfl, h⟩)

/-- A word decodes to an instruction exactly when its fields are the opcode and the operands. -/
theorem decode_eq_ok_iff_fieldsIn : decode w = .ok i ↔ bits w 28 4 = i.opcode ∧ i.FieldsIn w :=
  ⟨fieldsIn_of_decode, fun ⟨hop, h⟩ => decode_of_fieldsIn hop h⟩

/-! The fields and the encoding: positional arithmetic. -/

/-- A word is the number its opcode and bits 27:0 make. -/
theorem opcode_low28_iff {op n : Nat} (hop : op < 2 ^ 4) (hn : n < 2 ^ 28) :
    bits w 28 4 = op ∧ bits w 0 28 = n ↔ w.toNat = op * 2 ^ 28 + n := by
  have := w.isLt
  simp only [bits, pow_zero, Nat.div_one]
  omega

/-- Bits 27:0 of a format with a `csel`: the four bits above it and the 21 bits below (R102). -/
theorem csel_low28_iff {f c n : Nat} (hf : f < 2 ^ 4) (hc : c < 2 ^ 3) (hn : n < 2 ^ 21) :
    bits w 24 4 = f ∧ bits w 21 3 = c ∧ bits w 0 21 = n ↔
      bits w 0 28 = f * 2 ^ 24 + c * 2 ^ 21 + n := by
  simp only [bits, pow_zero, Nat.div_one]
  omega

/-- The same, where the low bits must be zero (R105 to R107). -/
theorem csel_low28_iff_zero {f c : Nat} (hf : f < 2 ^ 4) (hc : c < 2 ^ 3) :
    bits w 24 4 = f ∧ bits w 21 3 = c ∧ bits w 0 21 = 0 ↔
      bits w 0 28 = f * 2 ^ 24 + c * 2 ^ 21 := by
  rw [csel_low28_iff hf hc (Nat.two_pow_pos 21), Nat.add_zero]

/-- The same, where the low bits are a number only if their operands fit. -/
theorem csel_low28_iff_of_fits {f c n : Nat} {fits : Prop} (hf : f < 2 ^ 4) (hc : c < 2 ^ 3)
    (hn : fits → n < 2 ^ 21) :
    bits w 24 4 = f ∧ bits w 21 3 = c ∧ fits ∧ bits w 0 21 = n ↔
      fits ∧ bits w 0 28 = f * 2 ^ 24 + c * 2 ^ 21 + n := by
  by_cases h : fits
  · simpa [h] using csel_low28_iff hf hc (hn h)
  · simp [h]

/-- Bits 27:0 of format X (R108). -/
theorem formatX_low28_iff {ch r : Nat} (hch : ch < 2) (hr : r < 4) :
    bits w 24 4 = ch ∧ bits w 20 4 = r ∧ bits w 0 20 = 0 ↔
      bits w 0 28 = ch * 2 ^ 24 + r * 2 ^ 20 := by
  simp only [bits, pow_zero, Nat.div_one]
  omega

/-- The offset fields of format R are bits 20:0 (R103). -/
theorem Offset.fieldsIn_iff (off : Offset) :
    bits w 13 6 = 0 ∧ off.FieldsIn w ↔ off.wf = true ∧ bits w 0 21 = off.field := by
  cases off <;>
    simp only [Offset.FieldsIn, Offset.wf, Offset.field, bits, pow_zero, Nat.div_one,
      decide_eq_true_eq, true_and] <;>
    omega

/-- The `lfo`, `depth` and `base` fields of format M are bits 20:0 (R104). -/
theorem formatM_low21_iff {lfo depth base : Nat} (hl : lfo < 2) :
    bits w 20 1 = lfo ∧ bits w 13 7 = depth ∧ bits w 0 13 = base ↔
      (base < 8192 ∧ depth < 128) ∧ bits w 0 21 = lfo * 2 ^ 20 + depth * 2 ^ 13 + base := by
  simp only [bits, pow_zero, Nat.div_one]
  omega

/-- Bits 27:0 hold an instruction's operands exactly when they are its operand field. -/
theorem fieldsIn_iff_operandField (i : Instr) (w : Word) :
    i.FieldsIn w ↔ i.wf = true ∧ bits w 0 28 = i.operandField := by
  cases i with
  | nop => exact (and_iff_right rfl).symm
  | start => exact (and_iff_right rfl).symm
  | rdin src c =>
    have := src.code_lt
    exact (csel_low28_iff_zero (by omega) c.code_lt).trans (and_iff_right rfl).symm
  | rd line off c =>
    simp only [Instr.FieldsIn, off.fieldsIn_iff]
    exact csel_low28_iff_of_fits (by omega) c.code_lt Offset.field_lt
  | rdm line base depth lfo c =>
    simp only [Instr.FieldsIn, formatM_low21_iff lfo.isLt, Instr.wf, Instr.operandField,
      Bool.and_eq_true, decide_eq_true_eq]
    rw [csel_low28_iff_of_fits (by omega) c.code_lt (by omega)]
    simp only [Nat.add_assoc]
  | wrap line c => exact (csel_low28_iff_zero (by omega) c.code_lt).trans (and_iff_right rfl).symm
  | wr line off c =>
    simp only [Instr.FieldsIn, off.fieldsIn_iff]
    exact csel_low28_iff_of_fits (by omega) c.code_lt Offset.field_lt
  | wrout r c => exact (csel_low28_iff_zero (by omega) c.code_lt).trans (and_iff_right rfl).symm
  | ld r =>
    simp only [Instr.FieldsIn, Instr.wf, Instr.operandField, true_and]
    rw [csel_low28_iff_zero (by omega) (Nat.two_pow_pos 3), Nat.zero_mul, Nat.add_zero]
  | lp r c => exact (csel_low28_iff_zero (by omega) c.code_lt).trans (and_iff_right rfl).symm
  | xfade ch r => exact (formatX_low28_iff ch.code_lt r.isLt).trans (and_iff_right rfl).symm
  | eof => exact (and_iff_right rfl).symm

/-- There are twelve opcodes (R101). -/
theorem Instr.opcode_lt (i : Instr) : i.opcode < 12 := by cases i <;> simp [Instr.opcode]

/-- The number of every well-formed instruction's word (R101 to R109). -/
theorem Laws.OpcodeField.holds (i : Instr) : Statement i := by
  cases i with
  | nop => exact nop
  | start => exact start
  | rdin src c => exact rdin src c
  | rd line off c => exact rd line off c
  | rdm line base depth lfo c => exact rdm line base depth lfo c
  | wrap line c => exact wrap line c
  | wr line off c => exact wr line off c
  | wrout r c => exact wrout r c
  | ld r => exact ld r
  | lp r c => exact lp r c
  | xfade ch r => exact xfade ch r
  | eof => exact eof

/-- Decoding and encoding are inverse: the legal words are the words of the well-formed instructions. -/
theorem decode_eq_ok_iff : decode w = .ok i ↔ i.wf = true ∧ encode i = w := by
  rw [decode_eq_ok_iff_fieldsIn, fieldsIn_iff_operandField, and_left_comm]
  refine and_congr_right fun hwf => ?_
  obtain ⟨hfield, henc⟩ := Laws.OpcodeField.holds i hwf
  have hop := i.opcode_lt
  rw [opcode_low28_iff (by omega) hfield, ← henc, BitVec.toNat_inj, eq_comm]

end Sys2Proof
end

section
/-! SUPPORT. ILLEGAL words: R113's table read on the fields, the engine step at such a word; and the sign
flip of R110. -/

namespace Sys2Proof.Machine

open Sys2Proof.Claims

variable {s : State} {w : Word}

/-- R113's table, its fields as the numbers the decoder reads. -/
theorem illegal113_iff_bits : Illegal113 w ↔
    ((bits w 28 4 = 0 ∨ bits w 28 4 = 1 ∨ bits w 28 4 = 11) ∧ bits w 0 28 ≠ 0) ∨
    (bits w 28 4 = 2 ∧ (2 < bits w 24 4 ∨ bits w 0 21 ≠ 0)) ∨
    ((bits w 28 4 = 3 ∨ bits w 28 4 = 6) ∧
      (9 < bits w 24 4 ∨ bits w 19 2 = 3 ∨ bits w 13 6 ≠ 0 ∨ (bits w 19 2 = 2 ∧ bits w 0 13 ≠ 0))) ∨
    (bits w 28 4 = 4 ∧ 9 < bits w 24 4) ∨
    (bits w 28 4 = 5 ∧ (9 < bits w 24 4 ∨ bits w 0 21 ≠ 0)) ∨
    ((bits w 28 4 = 7 ∨ bits w 28 4 = 9) ∧ (3 < bits w 24 4 ∨ bits w 0 21 ≠ 0)) ∨
    (bits w 28 4 = 8 ∧ (3 < bits w 24 4 ∨ bits w 0 21 ≠ 0 ∨ bits w 21 3 ≠ 0)) ∨
    (bits w 28 4 = 10 ∧ (1 < bits w 24 4 ∨ 3 < bits w 20 4 ∨ bits w 0 20 ≠ 0)) ∨
    12 ≤ bits w 28 4 := by
  simp only [Illegal113, ne_eq, ← BitVec.toNat_inj, BitVec.lt_def, BitVec.le_def,
    toNat_extractLsb'_eq_bits]
  rfl

/-- The decoder refuses the words of R113's table: each opcode's format refuses its row. -/
theorem decode_illegal_iff (w : Word) : (∃ why, decode w = .illegal why) ↔ Illegal113 w := by
  rw [illegal113_iff_bits]
  by_cases hres : 12 ≤ bits w 28 4
  · simp [decode_reserved hres, hres]
  · interval_cases hop : bits w 28 4
    · simp [decode_nop hop, decodeN_illegal_iff]
    · simp [decode_start hop, decodeN_illegal_iff]
    · simp [decode_rdin hop, decodeI_illegal_iff]
    · simp [decode_rd hop, decodeR_illegal_iff]
    · simp [decode_rdm hop, decodeM_illegal_iff]
    · simp [decode_wrap hop, decodeA_illegal_iff]
    · simp [decode_wr hop, decodeR_illegal_iff]
    · simp [decode_wrout hop, decodeS_illegal_iff]
    · simp [decode_ld hop, decodeLd_illegal_iff]
    · simp [decode_lp hop, decodeS_illegal_iff]
    · simp [decode_xfade hop, decodeX_illegal_iff]
    · simp [decode_eof hop, decodeN_illegal_iff]

/-- The engine running at a word takes the word's micro-instruction (R274). -/
theorem engineStep_run (hf : s.fault = false) (hp : s.phase = .run) : engineStep s = runWord s := by
  simp [engineStep, hf, hp]

/-- An ILLEGAL word raises ILLEGAL, whatever the tick (R402). -/
theorem runWord_illegal {why : IllegalWord} (hw : s.ucode[s.upc]? = some w)
    (hd : decode w = .illegal why) : runWord s = .next (s.raise .illegal) := by
  simp only [runWord, hw, hd]

/-- `neg` flips the sign bit and keeps the others (R110). -/
theorem toNat_neg_eq_ite (a : F32) :
    (F32.neg a).toNat = if a.toNat < 2 ^ 31 then a.toNat + 2 ^ 31 else a.toNat - 2 ^ 31 := by
  rw [F32.toNat_neg]
  split <;> split <;> omega

/-- The coefficient operand is the one the `csel` field selects (R102, R110). -/
theorem coefField_eq_of_fieldsIn {i : Instr} {c : Coef} (h : i.FieldsIn w)
    (hc : coefOperand i = some c) : coefField w = c := by
  cases i with
  | nop | start | ld _ | xfade _ _ | eof => cases hc
  | rdin _ _ | rd _ _ _ | rdm _ _ _ _ _ | wrap _ _ | wr _ _ _ | wrout _ _ | lp _ _ =>
    cases hc
    obtain ⟨-, hcsel, -⟩ := h
    exact coefField_eq hcsel

end Sys2Proof.Machine
end

section
/-! The obligations on the encoding of spec/30_encoding.md. -/

namespace Sys2Proof.Proofs

open Sys2Proof.Machine Sys2Proof.Claims

/-- Settles O2: the legal words are the encodings. -/
theorem decodeAfterEncode : Obligations.DecodeAfterEncode :=
  fun _ hwf => decode_eq_ok_iff.mpr ⟨hwf, rfl⟩

/-- Settles O3: the legal words are the encodings. -/
theorem encodeAfterDecode : Obligations.EncodeAfterDecode :=
  fun _ _ h => decode_eq_ok_iff.mp h

/-- Settles O4: each format refuses its row of the table, and an engine step at a refused word is the fault. -/
theorem illegalWordsAreTheTable : Obligations.IllegalWordsAreTheTable := by
  refine ⟨decode_illegal_iff, fun s w rest hturn hf hp hw hill => ?_⟩
  obtain ⟨why, hd⟩ := (decode_illegal_iff w).mpr hill
  rw [step_engineTurn hturn, engineStep_run (s := popped rest s) hf hp]
  exact runWord_illegal hw hd

/-- Settles O1, word by word; each refused word with the row of R113 it falls under. -/
theorem specWordsDecode : Obligations.SpecWordsDecode := by
  refine ⟨by decide, by decide, by decide, by decide, by decide, by decide, by decide, ?_⟩
  simp only [List.forall_mem_cons]
  exact ⟨⟨.offsetMode, by decide⟩, ⟨.tailWithK, by decide⟩, ⟨.ldCoef, by decide⟩,
    ⟨.scalarReg, by decide⟩, ⟨.line, by decide⟩, ⟨.reservedOpcode, by decide⟩, nofun⟩

/-- Settles O8: the latches as they are, one sign flip, and the `csel` field of a legal word. -/
theorem coefficientTable : Obligations.CoefficientTable := by
  refine ⟨fun s => ⟨rfl, rfl, rfl, rfl, toNat_neg_eq_ite _, rfl, rfl, rfl⟩, fun w i c h hc => ?_⟩
  obtain ⟨-, hf⟩ := decode_eq_ok_iff_fieldsIn.mp h
  rw [toNat_extractLsb'_eq_bits]
  exact (coefField_eq_of_fieldsIn hf hc).symm

end Sys2Proof.Proofs
end

section
/-! SUPPORT. The tick: what START answers in each of its cases (R201), the classes of a value in the range
of `WAVE` (R203), and the frame of the register-only instructions (R411). -/

namespace Sys2Proof.Machine

open Sys2Proof.Claims

variable {s t : State} {i : Instr}

/-! START. -/

theorem all_eq_false_iff (p : ParamFile Bool) : p.all = false ↔
    p.amount = false ∨ p.inputGain = false ∨ p.time = false ∨ p.diffusion = false ∨ p.lp = false ∨
      p.size = false := by
  simp only [ParamFile.all, Bool.and_eq_false_iff, or_assoc]

theorem execStart_of_open (ho : s.tickOpen = true) : execStart s = .next (s.raise .tickOpen) :=
  if_pos ho

theorem execStart_of_unset (ho : s.tickOpen = false) (hv : s.pv.all = false) :
    execStart s = .next (s.raise .paramUnset) := by
  simp [execStart, ho, hv]

theorem execStart_of_set (ho : s.tickOpen = false) (hv : s.pv.all = true) :
    execStart s = .next s.openTick.advance := by
  simp [execStart, ho, hv]

/-- A write index inside its line goes one back modulo the length (R31). -/
theorem nextWp_eq_emod {l : LineId} (h : s.wp[l] < s.len[l]) :
    (s.nextWp l : Int) = ((s.wp[l] : Int) - 1) % (s.len[l] : Int) := by
  have hturn : ((s.wp[l] + s.len[l] - 1 : Nat) : Int) = (s.wp[l] : Int) - 1 + s.len[l] := by omega
  rw [State.nextWp, Int.natCast_emod, hturn, Int.add_emod_right]

/-! The range of `WAVE`. -/

theorem inRange_iff (v : F32) : Wave.inRange v = true ↔
    v = 0#32 ∨ (0x00800000 ≤ v.toNat ∧ v.toNat ≤ 0x3F800000) := by
  simp [Wave.inRange]

/-- A value in the range is an ordinary nonnegative number. -/
theorem classes_of_inRange {v : F32} (h : Wave.inRange v = true) :
    F32.isNaN v = false ∧ F32.isInf v = false ∧ F32.isSubnormal v = false ∧ F32.isNeg v = false := by
  rcases (inRange_iff v).mp h with rfl | ⟨hlo, hhi⟩
  · decide
  · have hexp : F32.expField v ≠ 0 ∧ F32.expField v ≠ 255 := by
      unfold F32.expField
      omega
    have hsign : F32.isNeg v = false := decide_eq_false (by omega)
    simp [F32.isNaN, F32.isInf, F32.isSubnormal, hexp, hsign]

/-! The frame. -/

theorem withRecord_raise (c : FaultCause) (s : State) : withRecord (s.raise c) s = s.raise c := by
  rcases raise_cases c s with ⟨-, h⟩ | ⟨-, h⟩ <;> rw [h] <;> rfl

/-- A fault writes the record alone, which every register-only instruction but NOP may write. -/
theorem registerFrame_raise (hi : RegisterOnly i) (hn : i ≠ .nop) (c : FaultCause) (s : State) :
    registerFrame i (s.raise c) s = s.raise c := by
  refine Eq.trans ?_ (withRecord_raise c s)
  cases i with
  | nop => exact absurd rfl hn
  | wrap _ _ | wr _ _ _ | eof => exact hi.elim
  | xfade ch _ => cases ch <;> simp [registerFrame, withRecord]
  | start | rdin _ _ | rd _ _ _ | rdm _ _ _ _ _ | wrout _ _ | ld _ | lp _ _ =>
    simp [registerFrame, withRecord]

theorem registerFrame_mem (hi : RegisterOnly i) (t s : State) : (registerFrame i t s).mem = s.mem := by
  cases i with
  | wrap _ _ | wr _ _ _ | eof => exact hi.elim
  | xfade ch _ => cases ch <;> rfl
  | _ => rfl

theorem registerFrame_arena (hi : RegisterOnly i) (t s : State) :
    (registerFrame i t s).arena = s.arena := by
  cases i with
  | wrap _ _ | wr _ _ _ | eof => exact hi.elim
  | xfade ch _ => cases ch <;> rfl
  | _ => rfl

/-- The tick guard's fault keeps the frame. -/
theorem eq_registerFrame_of_guarded (hi : RegisterOnly i) (hn : i ≠ .nop) {run : Result}
    (h : guarded s run = .next t) (hrun : run = .next t → t = registerFrame i t s) :
    t = registerFrame i t s := by
  rcases guarded_next h with ⟨-, h⟩ | ⟨-, rfl⟩
  · exact hrun h
  · exact (registerFrame_raise hi hn _ s).symm

/-- The fault of an unwritten scalar keeps the frame. -/
theorem eq_registerFrame_of_withScalar (hi : RegisterOnly i) (hn : i ≠ .nop) {r : ScalarReg}
    {use : F32 → Result} (h : withScalar r s use = .next t)
    (huse : s.sv[r] = true → use s.sreg[r] = .next t → t = registerFrame i t s) :
    t = registerFrame i t s := by
  rcases withScalar_next h with ⟨hv, h⟩ | ⟨-, rfl⟩
  · exact huse hv h
  · exact (registerFrame_raise hi hn _ s).symm

/-- START clears `V[0]` and `V[1]` alone. -/
theorem registerFrame_start_openTick (s : State) :
    registerFrame .start s.openTick.advance s = s.openTick.advance := by
  simp [registerFrame, withRecord, State.openTick, State.advance]

/-- A read keeps the frame of an instruction that may write `ACC`, `PREV` and `PREVTAG`. -/
theorem eq_registerFrame_of_accumulateRead (hi : RegisterOnly i) (hn : i ≠ .nop) {line : LineId}
    {off g : F32} (h : accumulateRead line off g s = .next t)
    (hdone : ∀ acc v, registerFrame i ((s.setAcc acc).setRead line v).advance s =
      ((s.setAcc acc).setRead line v).advance) : t = registerFrame i t s := by
  rcases accumulateRead_next h with ⟨v, -, rfl⟩ | ⟨-, rfl⟩
  · exact (hdone _ v).symm
  · exact (registerFrame_raise hi hn _ s).symm

/-- Marking a valid scalar register valid changes nothing. -/
theorem sv_set_true_of_valid {r : ScalarReg} (hv : s.sv[r] = true) : s.sv.set r true = s.sv := by
  rw [← hv]
  simp

/-- An instruction that answers a next state writes no register but those its rule names. -/
theorem eq_registerFrame_of_exec (hi : RegisterOnly i) (h : exec i s = .next t) :
    t = registerFrame i t s := by
  cases i with
  | nop =>
    cases h
    rfl
  | start =>
    rcases execStart_next h with ⟨-, rfl⟩ | ⟨-, -, rfl⟩ | ⟨-, -, rfl⟩
    · exact (registerFrame_raise hi nofun _ s).symm
    · exact (registerFrame_raise hi nofun _ s).symm
    · exact (registerFrame_start_openTick s).symm
  | rdin src coef =>
    refine eq_registerFrame_of_guarded hi nofun h fun h => ?_
    cases h
    rfl
  | rd line off coef | rdm line base depth lfo coef =>
    exact eq_registerFrame_of_guarded hi nofun h fun h =>
      eq_registerFrame_of_accumulateRead hi nofun h fun _ _ => rfl
  | wrout reg coef =>
    refine eq_registerFrame_of_guarded hi nofun h fun h => ?_
    cases h
    simp [registerFrame, withRecord, State.setScalar, State.setAcc, State.advance]
  | ld reg =>
    refine eq_registerFrame_of_guarded hi nofun h fun h =>
      eq_registerFrame_of_withScalar hi nofun h fun _ h => ?_
    cases h
    rfl
  | lp reg coef =>
    refine eq_registerFrame_of_guarded hi nofun h fun h =>
      eq_registerFrame_of_withScalar hi nofun h fun hv h => ?_
    cases h
    simp [registerFrame, withRecord, State.setScalar, State.setAcc, State.advance,
      sv_set_true_of_valid hv]
  | xfade ch reg =>
    refine eq_registerFrame_of_guarded hi nofun h fun h =>
      eq_registerFrame_of_withScalar hi nofun h fun _ h => ?_
    cases h
    cases ch <;> rfl
  | wrap _ _ | wr _ _ _ | eof => exact hi.elim

end Sys2Proof.Machine
end

section
/-! The obligations on START, RDIN, NOP and the LFO of spec/41_tick_lfo_input.md, and on what the
register-only instructions keep. -/

namespace Sys2Proof.Proofs

open Sys2Proof.Machine Sys2Proof.Claims

/-- Settles O11, one lemma per case of START; the frame is `openTick`'s. -/
theorem startOpensATick : Obligations.StartOpensATick := by
  refine fun s => ⟨execStart_of_open, fun ho hv => ?_, fun ho hv => ?_⟩
  · exact execStart_of_unset ho ((all_eq_false_iff s.pv).mpr hv)
  · have hall : s.pv.all = true := hv ▸ rfl
    refine ⟨s.openTick.advance, execStart_of_set ho hall, rfl, rfl, rfl, rfl, rfl,
      by simp, by simp, by simp, by simp, fun l hl => ?_, fun k => ⟨?_, ?_⟩, rfl⟩
    · simpa using nextWp_eq_emod hl
    · simp [State.nextPhase]
    · simp

/-- Settles O22, instruction by instruction; memory and arena stand in every register frame. -/
theorem registerInstructionsFrame : Obligations.RegisterInstructionsFrame := by
  intro i s t hi h
  have hframe := eq_registerFrame_of_exec hi h
  refine ⟨hframe, fun a => ?_, fun a => ?_⟩
  · rw [hframe, registerFrame_mem hi]
  · rw [hframe, registerFrame_arena hi]

/-- Settles O56: the range law excludes the other classes, and the four fixed points come first in
`lawful`, whatever the candidate value. -/
theorem waveObeysItsLaws : Obligations.WaveObeysItsLaws := by
  intro kind p
  have hrange := inRange_waveValue kind p
  obtain ⟨hnan, hinf, hsub, hneg⟩ := classes_of_inRange hrange
  refine ⟨(inRange_iff _).mp hrange, hnan, hinf, hsub, hneg, ?_⟩
  cases kind <;> exact ⟨rfl, rfl, rfl, rfl⟩

/-- Settles O7: every other instruction stands behind the guard, and ILLEGAL is raised before `exec`. -/
theorem tickGuard : Obligations.TickGuard := by
  refine ⟨fun i s hnop hstart ho => ?_, fun s _ => rfl,
    fun s w why rest hturn hf hp _ hw hd => ?_⟩
  · cases i with
    | nop => exact absurd rfl hnop
    | start => exact absurd rfl hstart
    | rdin _ _ | rd _ _ _ | rdm _ _ _ _ _ | wrap _ _ | wr _ _ _ | wrout _ _ | ld _ | lp _ _
    | xfade _ _ | eof =>
      exact guarded_closed ho
  · rw [step_engineTurn hturn, engineStep_run (s := popped rest s) hf hp]
    exact runWord_illegal hw hd

/-- Settles O10: NOP is the advance of UPC. -/
theorem nopOnlyAdvances : Obligations.NopOnlyAdvances := fun _ => rfl

/-- Settles O12: the guard, then the source's value; the sum of both channels is taken first. -/
theorem rdinAddsScaledInput : Obligations.RdinAddsScaledInput := by
  refine fun src coef s => ⟨fun ho => guarded_closed ho, fun ho => (guarded_open ho).trans ?_⟩
  cases src <;> rfl

end Sys2Proof.Proofs
end

section
/-! SUPPORT. Rounding keeps a result between two binary32 values its exact value lies between, so products and
sums of values in `[0, n]` stay in their range (R10, R290); and the difference of equal values is a zero. -/

namespace Sys2Proof.F32

open Sys2Proof.Claims

/-! Rounding between two values. -/

theorem abs_units (a : F32) : |units a| = magnitudeUnits (a.toNat % 2 ^ 31) := by
  have hsign : |signFactor (isNeg a)| = 1 := by cases isNeg a <;> rfl
  rw [units_eq, abs_mul, hsign, one_mul, Nat.abs_cast]

/-- A finite value lies below the overflow threshold of `Rounded`. -/
theorem abs_units_lt_of_isFinite {a : F32} (h : isFinite a = true) :
    |units a| < (2 ^ 25 - 1) * 2 ^ 252 := by
  have hmag := (isFinite_iff_magnitude a).mp h
  have hle := magnitudeUnits_strictMono.monotone (Nat.le_of_lt_succ hmag)
  have hmax : magnitudeUnits 0x7F7FFFFF = (2 ^ 24 - 1) * 2 ^ 253 := by decide
  rw [abs_units]
  omega

section
variable {exact scale : Int} {r c : F32} (hs : 0 < scale)
include hs

omit hs in
theorem distance_le_of_nearestEven (h : NearestEven exact scale r) (hc : isFinite c = true) :
    |exact - scale * units r| ≤ |exact - scale * units c| := by
  obtain ⟨-, hnear⟩ := h
  exact (hnear c hc).elim le_of_lt fun htie => htie.1.le

theorem units_le_of_nearestEven (h : NearestEven exact scale r) (hc : isFinite c = true)
    (hle : exact ≤ scale * units c) : units r ≤ units c := by
  have hnear := distance_le_of_nearestEven h hc
  by_contra hlt
  have hlt := mul_lt_mul_of_pos_left (not_le.mp hlt) hs
  rw [abs_of_nonpos (by omega), abs_of_nonpos (by omega)] at hnear
  omega

theorem le_units_of_nearestEven (h : NearestEven exact scale r) (hc : isFinite c = true)
    (hle : scale * units c ≤ exact) : units c ≤ units r := by
  have hnear := distance_le_of_nearestEven h hc
  by_contra hlt
  have hlt := mul_lt_mul_of_pos_left (not_le.mp hlt) hs
  rw [abs_of_nonneg (by omega), abs_of_nonneg (by omega)] at hnear
  omega

/-- A nonnegative result that is at most a finite value is rounded to at most that value. -/
theorem units_le_of_rounded (h : Rounded exact scale r) (hc : isFinite c = true) (h0 : 0 ≤ exact)
    (hle : exact ≤ scale * units c) : isFinite r = true ∧ 0 ≤ units r ∧ units r ≤ units c := by
  have hrange : |exact| < scale * ((2 ^ 25 - 1) * 2 ^ 252) :=
    calc |exact| ≤ scale * units c := by rwa [abs_of_nonneg h0]
      _ < _ := mul_lt_mul_of_pos_left ((le_abs_self _).trans_lt (abs_units_lt_of_isFinite hc)) hs
  obtain ⟨hround, -⟩ := h
  have hnear := hround hrange
  have hzero := le_units_of_nearestEven hs hnear (c := zero false) (by decide)
    (by rwa [units_zero, mul_zero])
  rw [units_zero] at hzero
  exact ⟨hnear.1, hzero, units_le_of_nearestEven hs hnear hc hle⟩

end

/-! Values in `[0, n]`. -/

/-- `a` is a finite value from 0 to `n`, the zero of either sign. -/
def Within (n : Nat) (a : F32) : Prop := isFinite a = true ∧ 0 ≤ units a ∧ units a ≤ n * 2 ^ 149

section
variable {m n : Nat} {a b : F32}

theorem within_ofNat (hn : n < 2 ^ 24) : Within n (ofNat n) := by
  obtain ⟨hfin, hval⟩ := units_ofNat hn
  exact ⟨hfin, by rw [hval]; positivity, hval.le⟩

/-- A size in `[-0.0, 1.0]` (R290). -/
theorem within_of_sizeInUnit (h : SizeInUnit a) : Within 1 a := by
  rcases h with hz | hle
  · rw [Within, (isZero_iff_units a).mp hz]
    exact ⟨isFinite_of_isZero hz, le_rfl, by norm_num⟩
  · have hone : magnitudeUnits 0x3F800000 = 2 ^ 149 := by decide
    have hmag := magnitudeUnits_strictMono.monotone hle
    have hmod : a.toNat % 2 ^ 31 = a.toNat := Nat.mod_eq_of_lt (by omega)
    have hneg : isNeg a = false := decide_eq_false (by omega)
    rw [Within, isFinite_iff_magnitude, units_eq, hmod, hneg, signFactor]
    simp only [Bool.false_eq_true, if_false, one_mul]
    omega

/-- An output of `WAVE` lies in `[0.0, 1.0]` (R203). -/
theorem within_of_inRange (h : Wave.inRange a = true) : Within 1 a :=
  within_of_sizeInUnit <| ((Machine.inRange_iff a).mp h).imp (fun h0 => by rw [h0]; decide) And.right

theorem Within.flush (h : Within n a) (ftz : Bool) : Within n (flush ftz a) := by
  rw [Within, isFinite_flush]
  unfold F32.flush
  split
  · rw [units_zero]
    exact ⟨h.1, le_rfl, by positivity⟩
  · exact h

/-- A result in `[0, n]` is rounded to a value in `[0, n]`, `n` being a binary32 value. -/
theorem within_of_rounded {exact scale : Int} (hs : 0 < scale) (hn : n < 2 ^ 24)
    (h : Rounded exact scale a) (h0 : 0 ≤ exact) (hle : exact ≤ scale * (n * 2 ^ 149)) : Within n a := by
  obtain ⟨hfin, hval⟩ := units_ofNat hn
  rw [← hval] at hle
  have hr := units_le_of_rounded hs h hfin h0 hle
  rwa [hval] at hr

theorem Within.add (ha : Within m a) (hb : Within n b) (h : m + n < 2 ^ 24) (ftz : Bool) :
    Within (m + n) (add ftz a b) := by
  obtain ⟨hfa, ha0, ha⟩ := ha.flush ftz
  obtain ⟨hfb, hb0, hb⟩ := hb.flush ftz
  refine (within_of_rounded Int.one_pos h (rounded_ieeeAdd hfa hfb) (add_nonneg ha0 hb0) ?_).flush ftz
  push_cast
  omega

theorem Within.mul (ha : Within m a) (hb : Within n b) (h : m * n < 2 ^ 24) (ftz : Bool) :
    Within (m * n) (mul ftz a b) := by
  obtain ⟨hfa, ha0, ha⟩ := ha.flush ftz
  obtain ⟨hfb, hb0, hb⟩ := hb.flush ftz
  refine (within_of_rounded (by norm_num) h (rounded_ieeeMul hfa hfb) (mul_nonneg ha0 hb0) ?_).flush ftz
  calc _ ≤ (m * 2 ^ 149 : Int) * (n * 2 ^ 149) := mul_le_mul ha hb hb0 (ha0.trans ha)
    _ = _ := by push_cast; ring

theorem Within.validOffset (h : Within n a) : ValidOffset a := by
  obtain ⟨hfin, h0, -⟩ := h
  obtain ⟨hnan, hinf⟩ := (isFinite_iff a).mp hfin
  have hsign : isNeg a = true → isZero a = true := by
    intro hneg
    have hval := units_eq a
    rw [hneg, signFactor, if_pos rfl] at hval
    exact (isZero_iff_units a).mpr (by omega)
  refine ⟨hnan, ?_, hinf⟩
  cases hneg : isNeg a
  · simp [geZero, hnan, hneg]
  · simp [geZero, hnan, hsign hneg]

theorem Within.floorNat_le (h : Within n a) : floorNat a ≤ n := by
  obtain ⟨-, h0, hle⟩ := h
  rw [floorNat_eq]
  omega

/-- At the upper end of the range the value is the integer itself. -/
theorem Within.units_of_floorNat (h : Within n a) (hfloor : floorNat a = n) : units a = n * 2 ^ 149 := by
  obtain ⟨-, h0, hle⟩ := h
  rw [floorNat_eq] at hfloor
  omega

end

theorem floorNat_ofNat {n : Nat} (h : n < 2 ^ 24) : floorNat (ofNat n) = n := by
  rw [floorNat_eq, (units_ofNat h).2]
  omega

/-! Differences of equal values. -/

section
variable {a b : F32}

/-- Finite patterns of one nonzero value are equal: adding zero gives either. -/
theorem eq_of_units_eq (ha : isFinite a = true) (hb : isFinite b = true) (hne : units b ≠ 0)
    (h : units a = units b) : a = b := by
  have hsum (c : F32) : units c + units (zero false) = units c := by rw [units_zero, add_zero]
  rw [← ieeeAdd_eq_of_units hb (b := zero false) (by decide) hb hne (hsum b)]
  exact (ieeeAdd_eq_of_units hb (by decide) ha (h ▸ hne) ((hsum b).trans h.symm)).symm

/-- Flushing depends on the value alone. -/
theorem units_flush_congr (ftz : Bool) (ha : isFinite a = true) (hb : isFinite b = true)
    (h : units a = units b) : units (flush ftz a) = units (flush ftz b) := by
  by_cases h0 : units b = 0
  · rw [eq_zero_of_units (h.trans h0), eq_zero_of_units h0]
    simp
  · rw [eq_of_units_eq ha hb h0 h]

theorem isZero_sub_of_units_eq (ftz : Bool) (ha : isFinite a = true) (hb : isFinite b = true)
    (h : units a = units b) : isZero (sub ftz a b) = true := by
  have hsum : units (flush ftz a) + units (flush ftz (neg b)) = 0 := by
    rw [flush_neg, units_neg, units_flush_congr ftz ha hb h, add_neg_cancel]
  rw [sub, add_of_sum_zero ha (by rwa [isFinite_neg]) hsum]
  exact isZero_zero _

end

end Sys2Proof.F32
end

section
/-! SUPPORT. Reads (R212 to R214): what a read of a line gives where its units exist, `ReadRule` for what RD
and RDM share, and that an offset in `[0, n]` with `n` inside a placed line is read. -/

namespace Sys2Proof.Machine

open Sys2Proof.Claims

variable {s : State} {line : LineId} {k : Nat} {off f : F32}

theorem validOffset_eq_false (h : ¬ ValidOffset off) : F32.validOffset off = false := by
  refine Bool.eq_false_iff.mpr fun hv => h ?_
  simp only [F32.validOffset, Bool.and_eq_true, Bool.not_eq_true'] at hv
  obtain ⟨hge, hinf⟩ := hv
  have hnan : F32.isNaN off = false := by
    simp only [F32.geZero, Bool.and_eq_true, Bool.not_eq_true'] at hge
    exact hge.1
  exact ⟨hnan, hge, hinf⟩

/-! Where the units exist. -/

theorem readUnit_eq_sample (h : UnitExists line k s) : s.readUnit line k = some (sample line k s) :=
  readUnit_eq h

theorem readExact_eq_sample (h : UnitExists line k s) :
    s.readExact line k = .value (sample line k s) := by
  simp [State.readExact, readUnit_eq_sample h]

theorem readBetween_eq_interpolation (h : UnitExists line k s) (h' : UnitExists line (k + 1) s) :
    s.readBetween line k f = .value (s.add (sample line k s)
      (s.mul (s.sub (sample line (k + 1) s) (sample line k s)) f)) := by
  simp [State.readBetween, readUnit_eq_sample h, readUnit_eq_sample h']

/-! Where the read leaves the line. -/

theorem readLine_invalid (h : ¬ ValidOffset off) : s.readLine line off = .outOfRange := by
  simp [State.readLine, validOffset_eq_false h]

theorem readLine_exact_outOfRange (hz : F32.isZero (s.sub off (F32.ofNat (F32.floorNat off))) = true)
    (hl : s.len[line] ≤ F32.floorNat off) : s.readLine line off = .outOfRange := by
  simp only [State.readLine, hz, if_true, if_neg (Nat.not_lt_of_le hl), ite_self]

theorem readLine_between_outOfRange
    (hz : F32.isZero (s.sub off (F32.ofNat (F32.floorNat off))) = false)
    (hl : s.len[line] ≤ F32.floorNat off + 1) : s.readLine line off = .outOfRange := by
  simp only [State.readLine, hz, Bool.false_eq_true, if_false, if_neg (Nat.not_lt_of_le hl), ite_self]

/-- What RD and RDM do at any offset, one lemma of `readLine` per clause (R212, R213, R214). -/
theorem readRule_accumulateRead (line : LineId) (off g : F32) (s : State) :
    ReadRule line off g s (accumulateRead line off g s) := by
  refine ⟨fun hv => ?invalid, fun hv hz => ⟨fun hl => ?exactOut, fun hl hu => ?exact⟩,
    fun hv hz => ⟨fun hl => ?betweenOut, fun hl hu hu' => ?between⟩⟩
  case invalid => exact accumulateRead_outOfRange (readLine_invalid hv)
  case exactOut => exact accumulateRead_outOfRange (readLine_exact_outOfRange hz hl)
  case exact => exact accumulateRead_value ((readLine_exact hv hz hl).trans (readExact_eq_sample hu))
  case betweenOut => exact accumulateRead_outOfRange (readLine_between_outOfRange hz hl)
  case between =>
    exact accumulateRead_value ((readLine_between hv hz hl).trans (readBetween_eq_interpolation hu hu'))

/-! RD and RDM in an open tick. -/

theorem exec_rd_open (ho : s.tickOpen = true) (line : LineId) (off : Offset) (coef : Coef) :
    exec (.rd line off coef) s = accumulateRead line (s.offsetR line off) (s.coef coef) s :=
  guarded_open ho

theorem exec_rdm_open (ho : s.tickOpen = true) (line : LineId) (base depth : Nat) (lfo : LfoId)
    (coef : Coef) : exec (.rdm line base depth lfo coef) s =
      accumulateRead line (s.offsetM base depth lfo) (s.coef coef) s :=
  guarded_open ho

/-! Reads that stay in the line. -/

theorem State.linesPlaced.len_le (hs : s.linesPlaced) (line : LineId) : s.len[line] ≤ 16375 :=
  (Nat.le_add_left _ _).trans (hs.line_end_le line)

/-- An offset from 0 to an integer inside a placed line is read: an interpolated read starts below that
integer, where the fraction would be 0. -/
theorem readLine_value_of_within {n : Nat} (hs : s.linesPlaced) (hn : n < s.len[line])
    (h : F32.Within n off) : ∃ v, s.readLine line off = .value v := by
  have hmax := hs.len_le line
  have hunit (k : Nat) : UnitExists line k s := hs.cell_lt_arenaUnits line k
  have hfloor := h.floorNat_le
  cases hz : F32.isZero (s.sub off (F32.ofNat (F32.floorNat off)))
  · have hlt : F32.floorNat off < n := by
      refine hfloor.lt_of_ne fun heq => ?_
      obtain ⟨hfin, hval⟩ := F32.units_ofNat (n := n) (by omega)
      have hzero := F32.isZero_sub_of_units_eq s.cfg.ftz h.1 hfin
        ((h.units_of_floorNat heq).trans hval.symm)
      rw [heq, State.sub, hzero] at hz
      cases hz
    exact ⟨_, (readLine_between h.validOffset hz (by omega)).trans
      (readBetween_eq_interpolation (hunit _) (hunit _))⟩
  · exact ⟨_, (readLine_exact h.validOffset hz (by omega)).trans (readExact_eq_sample (hunit _))⟩

end Sys2Proof.Machine
end

section
/-! The obligations on RD and RDM of spec/42_delay_read.md. -/

namespace Sys2Proof.Proofs

open Sys2Proof.Machine Sys2Proof.Claims

/-- Settles O13: behind the guard RD is the shared read. -/
theorem rdReadsTheLine : Obligations.RdReadsTheLine := by
  refine fun line off coef s => ⟨fun ho => guarded_closed ho, fun ho => ?_⟩
  rw [exec_rd_open ho]
  exact readRule_accumulateRead ..

/-- Settles O14: behind the guard RDM is the shared read at the modulated offset. -/
theorem rdmReadsTheModulatedLine : Obligations.RdmReadsTheModulatedLine := by
  refine fun line base depth lfo coef s => ⟨fun ho => guarded_closed ho, fun ho => ?_⟩
  rw [exec_rdm_open ho]
  exact readRule_accumulateRead ..

/-- Settles O51: `f32(K)` is its own floor with fraction 0, so the read is exact. -/
theorem immediateReadTakesOneUnit : Obligations.ImmediateReadTakesOneUnit := by
  intro line k coef s ho hs hk
  have hk : k < 2 ^ 24 := by omega
  have hoff := F32.within_ofNat hk
  have hfloor := F32.floorNat_ofNat hk
  have hz : F32.isZero (F32.sub s.cfg.ftz (F32.ofNat k) (F32.ofNat k)) = true :=
    F32.isZero_sub_of_units_eq _ hoff.1 hoff.1 rfl
  obtain ⟨-, hexact, -⟩ := (rdReadsTheLine line (.imm k) coef s).2 ho
  obtain ⟨hout, hin⟩ := hexact hoff.validOffset (by rwa [State.offsetR, hfloor])
  rw [State.offsetR, hfloor] at hout hin
  exact ⟨fun hl => hin hl (hs.cell_lt_arenaUnits line k), hout⟩

/-- Settles O53: each product stays in `[0, base]` and `[0, depth]`, their sum in `[0, base + depth]`. -/
theorem modulatedReadsStayInTheLine : Obligations.ModulatedReadsStayInTheLine := by
  intro line base depth lfo coef s ho hs hsize hwave hlen
  have hmax := hs.len_le line
  have hbase := (F32.within_ofNat (n := base) (by omega)).mul (F32.within_of_sizeInUnit hsize)
    (by omega) s.cfg.ftz
  have hdepth := (F32.within_ofNat (n := depth) (by omega)).mul (F32.within_of_inRange hwave)
    (by omega) s.cfg.ftz
  rw [Nat.mul_one] at hbase hdepth
  have hoff : F32.Within (base + depth) (s.offsetM base depth lfo) :=
    hbase.add hdepth (by omega) s.cfg.ftz
  obtain ⟨v, hv⟩ := readLine_value_of_within hs hlen hoff
  exact ⟨v, (exec_rdm_open ho ..).trans (accumulateRead_value hv)⟩

/-- Settles O9: the offset operands, form by form. -/
theorem offsetEvaluation : Obligations.OffsetEvaluation := fun _ _ _ _ _ _ => ⟨rfl, rfl, rfl, rfl⟩

end Sys2Proof.Proofs
end

section
/-! SUPPORT. Stores (R230 to R232): what WRAP and WR answer in an open tick, and the frame of a store, which
a fault keeps as well. -/

namespace Sys2Proof.Machine

open Sys2Proof.Claims

variable {s t : State} {line : LineId} {off : Offset} {coef : Coef}

/-! WRAP and WR in an open tick. -/

theorem exec_wrap_tagged (ho : s.tickOpen = true) (htag : s.prevTag = some line) :
    exec (.wrap line coef) s = storeAcc line 0 (s.add (s.mul s.acc (s.coef coef)) s.prev) s :=
  (guarded_open ho).trans (if_pos htag)

theorem exec_wrap_untagged (ho : s.tickOpen = true) (htag : s.prevTag ≠ some line) :
    exec (.wrap line coef) s = .next (s.raise .apNoRead) :=
  (guarded_open ho).trans (if_neg htag)

theorem exec_wr_inRange {k : Nat} (ho : s.tickOpen = true)
    (hk : s.writeOffset line (s.offsetR line off) = some k) :
    exec (.wr line off coef) s = storeAcc line k (s.mul s.acc (s.coef coef)) s := by
  rw [exec, execWr, guarded_open ho, hk]

theorem exec_wr_outOfRange (ho : s.tickOpen = true)
    (hk : s.writeOffset line (s.offsetR line off) = none) :
    exec (.wr line off coef) s = .next (s.raise .offsetRange) := by
  rw [exec, execWr, guarded_open ho, hk]

/-! What a WRAP or WR that answers a next state has done. -/

theorem raise_or_storeAcc_of_exec_wrap (h : exec (.wrap line coef) s = .next t) :
    (∃ c, t = s.raise c) ∨ ∃ acc, storeAcc line 0 acc s = .next t := by
  rcases guarded_next h with ⟨ho, -⟩ | ⟨-, ht⟩
  · by_cases htag : s.prevTag = some line
    · exact .inr ⟨_, (exec_wrap_tagged ho htag).symm.trans h⟩
    · exact .inl ⟨_, Host.Outcome.next.inj (h.symm.trans (exec_wrap_untagged ho htag))⟩
  · exact .inl ⟨_, ht⟩

theorem raise_or_storeAcc_of_exec_wr (h : exec (.wr line off coef) s = .next t) :
    (∃ c, t = s.raise c) ∨ ∃ k acc, s.writeOffset line (s.offsetR line off) = some k ∧
      storeAcc line k acc s = .next t := by
  rcases guarded_next h with ⟨ho, -⟩ | ⟨-, ht⟩
  · cases hk : s.writeOffset line (s.offsetR line off) with
    | some k => exact .inr ⟨k, _, rfl, (exec_wr_inRange ho hk).symm.trans h⟩
    | none => exact .inl ⟨_, Host.Outcome.next.inj (h.symm.trans (exec_wr_outOfRange ho hk))⟩
  · exact .inl ⟨_, ht⟩

/-! The frame. -/

/-- What a storing instruction may write, taken from `t`; everything else from `s`. -/
def storingFrame (t s : State) : State :=
  { withRecord t s with acc := t.acc, prevTag := t.prevTag, upc := t.upc, arena := t.arena }

theorem storingFrame_raise (c : FaultCause) (s : State) : storingFrame (s.raise c) s = s.raise c := by
  refine Eq.trans ?_ (withRecord_raise c s)
  simp [storingFrame, withRecord]

theorem readCell_mem_of_storingFrame (h : t = storingFrame t s) (b : Nat) :
    readCell t.mem b = readCell s.mem b := by
  rw [h]
  rfl

theorem eq_storingFrame_of_storeAcc {k : Nat} {acc : F32} (h : storeAcc line k acc s = .next t) :
    t = storingFrame t s := by
  obtain ⟨-, rfl⟩ := storeAcc_next h
  rfl

/-- A store changes the one unit it goes to. -/
theorem readCell_arena_of_storeAcc {k : Nat} {acc : F32} (hw : Arena.wf s.arena = true)
    (h : storeAcc line k acc s = .next t) {b : Nat} (hb : b ≠ s.cell line k) :
    readCell t.arena b = readCell s.arena b := by
  obtain ⟨hcells, -⟩ := (Arena.wf_iff _).mp hw
  obtain ⟨-, rfl⟩ := storeAcc_next h
  exact readCell_writeCell_other hcells _ hb

/-! The read before a WRAP. -/

/-- An RD that advanced UPC read a value in an open tick. -/
theorem readDone_of_exec_rd (h : exec (.rd line off coef) s = .next t) (hu : t.upc = s.upc + 1) :
    s.tickOpen = true ∧ ∃ v, t = readDone line v (s.coef coef) s := by
  rcases guarded_next h with ⟨ho, h⟩ | ⟨-, h⟩
  · rcases accumulateRead_next h with ⟨v, -, h⟩ | ⟨-, h⟩
    · exact ⟨ho, v, h⟩
    · exact absurd h (not_raise_of_upc hu)
  · exact absurd h (not_raise_of_upc hu)

end Sys2Proof.Machine
end

section
/-! The obligations on WRAP and WR of spec/43_delay_write.md. -/

namespace Sys2Proof.Proofs

open Sys2Proof.Machine Sys2Proof.Claims

/-- Settles O15: behind the guard and the tag WRAP is the shared store at offset 0. -/
theorem wrapStoresAndFeedsBack : Obligations.WrapStoresAndFeedsBack :=
  fun _ _ _ => ⟨guarded_closed, exec_wrap_untagged, fun ho htag hunit =>
    (exec_wrap_tagged ho htag).trans (storeAcc_inside hunit)⟩

/-- Settles O16: behind the guard WR is the shared store at `floor(off)`, where `writeOffset` gives one. -/
theorem wrStoresThenScales : Obligations.WrStoresThenScales := by
  refine fun line off coef s => ⟨guarded_closed, fun ho hout => ?_, fun ho hv hl hunit => ?_⟩
  · exact exec_wr_outOfRange ho (writeOffset_eq_none.mpr (hout.imp_left validOffset_eq_false))
  · have hk := writeOffset_eq_some.mpr ⟨validOffset_eq_true hv, hl, rfl⟩
    exact (exec_wr_inRange ho hk).trans (storeAcc_inside hunit)

/-- Settles O23: a fault writes the record alone, a store the one unit at its offset. -/
theorem storingInstructionsFrame : Obligations.StoringInstructionsFrame := by
  refine fun line off coef s t hw => ⟨fun h => ?wrap, fun h => ?wr⟩
  case wrap =>
    rcases raise_or_storeAcc_of_exec_wrap h with ⟨c, rfl⟩ | ⟨acc, hstore⟩
    · have hframe := (storingFrame_raise c s).symm
      exact ⟨hframe, readCell_mem_of_storingFrame hframe, fun b _ => by rw [raise_arena]⟩
    · have hframe := eq_storingFrame_of_storeAcc hstore
      exact ⟨hframe, readCell_mem_of_storingFrame hframe, fun _ => readCell_arena_of_storeAcc hw hstore⟩
  case wr =>
    rcases raise_or_storeAcc_of_exec_wr h with ⟨c, rfl⟩ | ⟨k, acc, hk, hstore⟩
    · have hframe := (storingFrame_raise c s).symm
      exact ⟨hframe, readCell_mem_of_storingFrame hframe, fun _ b => by rw [raise_arena],
        fun _ _ b _ => by rw [raise_arena]⟩
    · have hframe := eq_storingFrame_of_storeAcc hstore
      refine ⟨hframe, readCell_mem_of_storingFrame hframe, fun hnone => ?_, fun k' hk' _ => ?_⟩
      · cases hk.symm.trans hnone
      · cases hk.symm.trans hk'
        exact readCell_arena_of_storeAcc hw hstore

/-- Settles O50: the RD leaves its sample in PREV and its line in PREVTAG and moves no unit, so the WRAP is
`wrapStoresAndFeedsBack` in the state after it. -/
theorem allPassPair : Obligations.AllPassPair := by
  intro line off h g s t hw hunit hrd hu ftz d w
  obtain ⟨ho, v, rfl⟩ := readDone_of_exec_rd hrd hu
  obtain ⟨hcells, -⟩ := (Arena.wf_iff _).mp hw
  obtain ⟨-, -, hwrap⟩ := wrapStoresAndFeedsBack line g (readDone line v (s.coef h) s)
  exact ⟨_, hwrap ho rfl hunit, readCell_writeCell_same hcells _ _, rfl, rfl⟩

end Sys2Proof.Proofs
end

section
/-! SUPPORT. What holding the filter's state (R242) needs of the arithmetic: the second operand
of a finite sum is finite, and a zero of either sign adds nothing. -/

namespace Sys2Proof.F32

open Sys2Proof.Claims

variable {ftz : Bool} {a b : F32}

/-- Only `-0.0` is not kept: `-0.0 + 0.0` is `+0.0`. -/
theorem ieeeAdd_zero_right (ha : isFinite a = true) (hne : a ≠ 0x80000000#32) (n : Bool) :
    ieeeAdd a (zero n) = a := by
  by_cases h0 : units a = 0
  · obtain rfl := eq_posZero_of_units h0 hne
    cases n <;> decide
  · exact ieeeAdd_eq_of_units ha (isFinite_of_isZero (isZero_zero n)) ha h0 (by rw [units_zero, add_zero])

theorem not_addInvalid_of_isFinite_add (h : isFinite (add ftz a b) = true) : ¬ AddInvalid a b :=
  fun hinvalid => absurd (isNaN_of_isFinite h)
    (by simpa using (nan_iff_of_cases (add_nan_cases ftz a b)).1.mp hinvalid)

theorem isFinite_right_of_add (h : isFinite (add ftz a b) = true) : isFinite b = true := by
  have hvalid := not_addInvalid_of_isFinite_add h
  simp only [AddInvalid, not_or, Bool.not_eq_true, not_and, not_not] at hvalid
  obtain ⟨ha, hb, hsign⟩ := hvalid
  refine (isFinite_iff b).mpr ⟨hb, Bool.eq_false_iff.mpr fun hi => ?_⟩
  rw [add_inf_right hi ha fun hai => hsign hai hi] at h
  exact absurd hi (by simp [isInf_of_isFinite h])

theorem isFinite_right_of_sub (h : isFinite (sub ftz a b) = true) : isFinite b = true :=
  isFinite_neg b ▸ isFinite_right_of_add h

/-- Moving from `b` to `a` by a zero share stays at `b`. -/
theorem add_mul_sub_posZero (h : isFinite (sub false a b) = true) (hne : b ≠ 0x80000000#32) :
    add false b (mul false (sub false a b) 0x00000000#32) = b := by
  obtain ⟨-, -, -, hmul, -⟩ := Proofs.exactnessFacts
  rw [hmul false _ h, add_false]
  exact ieeeAdd_zero_right (isFinite_right_of_sub h) hne _

theorem sub_one_one : sub ftz 0x3F800000#32 0x3F800000#32 = 0x00000000#32 := by cases ftz <;> decide

end Sys2Proof.F32
end

section
/-! The obligations on WROUT, LD and LP of spec/44_scalar.md. -/

namespace Sys2Proof.Proofs

open Sys2Proof.Machine Sys2Proof.Claims

/-- Settles O17: behind the guard WROUT is its three register updates. -/
theorem wroutStoresThenScales : Obligations.WroutStoresThenScales :=
  fun _ _ _ => ⟨guarded_closed, guarded_open⟩

/-- Settles O18: behind the guard LD is the read of the scalar register. -/
theorem ldLoadsTheScalar : Obligations.LdLoadsTheScalar :=
  fun _ _ => ⟨guarded_closed, fun ho hv => (guarded_open ho).trans (withScalar_invalid hv),
    fun ho hv => (guarded_open ho).trans (withScalar_valid hv)⟩

/-- Settles O19: behind the guard LP is the read of the scalar register; the valid bit it sets was set. -/
theorem lpFiltersTheAccumulator : Obligations.LpFiltersTheAccumulator := by
  refine fun r coef s => ⟨guarded_closed,
    fun ho hv => (guarded_open ho).trans (withScalar_invalid hv),
    fun ho hv => ⟨_, (guarded_open ho).trans (withScalar_valid hv), ?_⟩⟩
  rw [State.setScalar, sv_set_true_of_valid hv]
  rfl

/-- Settles O55: at coefficient 1.0 the step is `s` plus a zero share of `ACC - s`, which is `s`. -/
theorem unitCoefficientHoldsTheFilter : Obligations.UnitCoefficientHoldsTheFilter := by
  intro r coef s ho hv hftz hcoef hfin hne
  obtain ⟨-, -, hlp⟩ := lpFiltersTheAccumulator r coef s
  obtain ⟨t, hexec, rfl⟩ := hlp ho hv
  rw [hexec, hftz, hcoef, F32.sub_one_one, F32.add_mul_sub_posZero hfin hne]
  simp

end Sys2Proof.Proofs
end

section
/-! SUPPORT. The host's commands: what a write of `CTRL` makes of the state (R301), what INIT answers in
each of its cases (R250), and the sums of line lengths it places the lines with (R251). -/

namespace Sys2Proof.Machine

open Sys2Proof.Claims

variable {s : State}

/-! The sums of line lengths. -/

/-- The lengths of the first `n` lines, taken from the list, are summed over the line numbers below `n`. -/
theorem lengthsBefore_eq_sum (len : Vector Nat 10) (n : Nat) :
    lengthsBefore len n = ∑ j : LineId with j.val < n, len[j] := by
  have hlist : len.toList = List.ofFn fun j : LineId => len[j] := by
    rw [← Vector.toList_ofFn]
    exact congrArg Vector.toList Vector.ofFn_getElem.symm
  rw [lengthsBefore, hlist, List.sum_take_ofFn]

theorem lengthsBefore_eq_lengthSumBefore (s : State) (i : LineId) :
    lengthsBefore s.len i = lengthSumBefore s i :=
  lengthsBefore_eq_sum s.len i

theorem lengthsBefore_ten (len : Vector Nat 10) : lengthsBefore len 10 = ∑ j : LineId, len[j] := by
  rw [lengthsBefore_eq_sum, Finset.filter_true_of_mem fun j _ => j.isLt]

/-! A write of `CTRL`. -/

theorem step_ctrlWrite {v : Word} {rest : List Move} (h : s.moves = .hostWrite 0 v :: rest) :
    step s = .next (ctrlWrite v (popped rest s)) :=
  step_of_move h

theorem ctrlWrite_init (hf : s.fault = false) : ctrlWrite 1#32 s = commandInit s := by
  simp [ctrlWrite, hf]

theorem step_init {rest : List Move} (h : s.moves = .hostWrite 0 1#32 :: rest) (hf : s.fault = false) :
    step s = .next (commandInit (popped rest s)) :=
  (step_ctrlWrite h).trans (congrArg _ (ctrlWrite_init hf))

/-- A cause of a host command writes the host's record (R410). -/
theorem raise_eq_hostFault {c : FaultCause} (hc : c.isHostCommand = true) (s : State) :
    s.raise c = hostFault c.code s :=
  if_pos hc

theorem busy_of_ne_idle (hp : s.phase ≠ .idle) : s.busy = true := bne_iff_ne.mpr hp

theorem busy_of_idle (hp : s.phase = .idle) : s.busy = false := by simp [State.busy, hp]

/-! INIT, fault by fault in the order of R250. -/

theorem commandInit_of_busy (hp : s.phase ≠ .idle) : commandInit s = hostFault 10#4 s :=
  (if_pos (busy_of_ne_idle hp)).trans (raise_eq_hostFault rfl s)

theorem commandInit_of_inited (hp : s.phase = .idle) (hi : s.inited = true) :
    commandInit s = hostFault 9#4 s :=
  calc commandInit s = s.raise .reinit := by simp [commandInit, busy_of_idle hp, hi]
    _ = hostFault 9#4 s := raise_eq_hostFault rfl s

theorem commandInit_of_overflow (hp : s.phase = .idle) (hi : s.inited = false)
    (hlen : arenaUnits < lengthsBefore s.len 10) : commandInit s = hostFault 13#4 s :=
  calc commandInit s = s.raise .arenaOverflow := by simp [commandInit, busy_of_idle hp, hi, hlen]
    _ = hostFault 13#4 s := raise_eq_hostFault rfl s

theorem commandInit_of_fits (hp : s.phase = .idle) (hi : s.inited = false)
    (hlen : lengthsBefore s.len 10 ≤ arenaUnits) : commandInit s = s.initialise := by
  simp [commandInit, busy_of_idle hp, hi, Nat.not_lt_of_le hlen]

/-! INIT's effect, entry by entry of its vectors. -/

theorem initialise_base_getElem (s : State) (i : LineId) :
    s.initialise.base[i] = lengthSumBefore s i := by
  rw [← lengthsBefore_eq_lengthSumBefore]
  simp

theorem initialise_wp_getElem (s : State) (i : LineId) : s.initialise.wp[i] = 0 := by
  fin_cases i <;> rfl

theorem initialise_ph_getElem (s : State) (k : LfoId) : s.initialise.ph[k] = 0#32 := by
  fin_cases k <;> rfl

end Sys2Proof.Machine
end

section
/-! The obligation on INIT of spec/45_init.md. -/

namespace Sys2Proof.Proofs

open Sys2Proof.Machine Sys2Proof.Claims

/-- Settles O30, one lemma per case of INIT; the frame is `initialise`'s. -/
theorem initPartitionsTheArena : Obligations.InitPartitionsTheArena := by
  intro s rest hm hf
  have hstep : step s = .next (commandInit (popped rest s)) := step_init hm hf
  simp only [← lengthsBefore_ten]
  refine ⟨fun hp => hstep.trans (congrArg _ (commandInit_of_busy hp)),
    fun hp hi => hstep.trans (congrArg _ (commandInit_of_inited hp hi)),
    fun hp hi hlen => hstep.trans (congrArg _ (commandInit_of_overflow hp hi hlen)),
    fun hp hi hlen => ⟨(popped rest s).initialise,
      hstep.trans (congrArg _ (commandInit_of_fits hp hi hlen)), rfl, fun i => ⟨?base, ?wp⟩, ?ph,
      rfl, rfl, rfl, rfl, rfl, rfl, rfl⟩⟩
  case base => exact initialise_base_getElem _ i
  case wp => exact initialise_wp_getElem _ i
  case ph => exact initialise_ph_getElem _

end Sys2Proof.Proofs
end

section
/-! SUPPORT. The frame program's steps: the engine's micro-step in each of its phases (R274), EOF inside the
32-bit space and the bytes it writes (R271), XFADE at an amount of `+0.0` (R270), and the offsets that stay
inside a placed line (R290). -/

namespace Sys2Proof.Machine

open Sys2Proof.Claims

variable {s : State} {line : LineId} {off : Offset}

/-! The engine's micro-step. -/

theorem engineStep_rest (h : s.fault = true ∨ s.phase = .idle) : engineStep s = .next s := by
  unfold engineStep
  rcases h with hf | hp
  · rw [if_pos hf]
  · rw [hp, ite_self]

theorem fetchFrame_inside (h : s.frameAddr + 8 ≤ 2 ^ 32) : fetchFrame s = .next
    { s with fl := readFrameWord s.mem s.frameAddr, fr := readFrameWord s.mem (s.frameAddr + 4),
             upc := 0, phase := .run } :=
  if_pos h

theorem runWord_pastEnd (h : s.ucode.length ≤ s.upc) : runWord s = .next (s.raise .upcRange) := by
  rw [runWord, List.getElem?_eq_none h]

theorem runWord_legal {w : Word} {i : Instr} (hw : s.ucode[s.upc]? = some w) (hd : decode w = .ok i) :
    runWord s = exec i s := by
  simp only [runWord, hw, hd]

/-! EOF. -/

theorem execEof_inside (ho : s.tickOpen = true) (h : s.frameAddr + 8 ≤ 2 ^ 32) :
    execEof s = .next s.closeFrame :=
  (guarded_open ho).trans (if_pos h)

/-- Byte `j` of a word just written, little-endian (R84). -/
theorem readCell_writeFrameWord_byte {m : Memory} (hm : Memory.wf m = true) (a : Nat) (v : Word) {j : Nat}
    (hj : j < 4) : readCell (writeFrameWord m a v) (a + j) = v.extractLsb' (8 * j) 8 := by
  rw [readCell_writeFrameWord hm]
  interval_cases j <;> simp

theorem readCell_closeFrame_left (hm : Memory.wf s.mem = true) {j : Nat} (hj : j < 4) :
    readCell s.closeFrame.mem (s.frameAddr + j) = s.fl.extractLsb' (8 * j) 8 := by
  have hleft := Memory.wf_writeFrameWord hm s.frameAddr s.fl
  rw [closeFrame_mem, readCell_writeFrameWord_outside hleft _ (by omega),
    readCell_writeFrameWord_byte hm _ _ hj]

theorem readCell_closeFrame_right (hm : Memory.wf s.mem = true) {j : Nat} (hj : j < 4) :
    readCell s.closeFrame.mem (s.frameAddr + 4 + j) = s.fr.extractLsb' (8 * j) 8 :=
  readCell_writeFrameWord_byte (Memory.wf_writeFrameWord hm ..) _ _ hj

/-! XFADE. -/

theorem exec_xfade_valid {r : ScalarReg} (ho : s.tickOpen = true) (hv : s.sv[r] = true) (ch : Channel) :
    exec (.xfade ch r) s =
      .next (s.setChannel ch (s.crossFade (s.channel ch) s.sreg[r])).advance :=
  (guarded_open ho).trans (withScalar_valid hv)

theorem exec_xfade_invalid {r : ScalarReg} (ho : s.tickOpen = true) (hv : s.sv[r] = false) (ch : Channel) :
    exec (.xfade ch r) s = .next (s.raise .unwrittenScalar) :=
  (guarded_open ho).trans (withScalar_invalid hv)

theorem setChannel_channel (ch : Channel) (s : State) : s.setChannel ch (s.channel ch) = s := by
  cases ch <;> rfl

/-- At an amount of `+0.0` the cross-fade stays at the sample, `-0.0` apart. -/
theorem crossFade_posZero {f w : F32} (hftz : s.cfg.ftz = false) (hamt : s.latch.amount = 0x00000000#32)
    (hfin : F32.isFinite (F32.sub false w f) = true) (hne : f ≠ 0x80000000#32) : s.crossFade f w = f := by
  rw [State.crossFade, State.add, State.mul, State.sub, hftz, hamt]
  exact F32.add_mul_sub_posZero hfin hne

/-! Offsets that stay inside a placed line. -/

/-- A size in `[-0.0, 1.0]` scales no offset up, so `K`, or `LEN - 1` for TAIL, bounds it. -/
theorem State.linesPlaced.offsetR_within (hs : s.linesPlaced) (hsize : SizeInUnit s.latch.size)
    (hk : ∀ k, (off = .imm k ∨ off = .scaled k) → k < s.len[line]) :
    ∃ n, n < s.len[line] ∧ F32.Within n (s.offsetR line off) := by
  have hmax := hs.len_le line
  have hpos := hs.len_pos line
  have hscaled {n : Nat} (hn : n < s.len[line]) :
      F32.Within n (F32.mul s.cfg.ftz (F32.ofNat n) s.latch.size) := by
    simpa using (F32.within_ofNat (n := n) (by omega)).mul (F32.within_of_sizeInUnit hsize)
      (by omega) s.cfg.ftz
  cases off with
  | imm k =>
    have hlt := hk k (.inl rfl)
    exact ⟨k, hlt, F32.within_ofNat (by omega)⟩
  | scaled k =>
    have hlt := hk k (.inr rfl)
    exact ⟨k, hlt, hscaled hlt⟩
  | tail =>
    have hlt : s.len[line] - 1 < s.len[line] := by omega
    exact ⟨_, hlt, hscaled hlt⟩

end Sys2Proof.Machine
end

section
/-! The obligations on the frame program of spec/46_reverb_program.md. -/

namespace Sys2Proof.Proofs

open Sys2Proof.Machine Sys2Proof.Claims

/-- Settles O21: behind the guard EOF is `closeFrame`, whose two word writes cover the frame's eight bytes. -/
theorem eofWritesTheFrameBack : Obligations.EofWritesTheFrameBack := by
  refine fun s hm => ⟨guarded_closed, fun ho ha => ⟨s.closeFrame, execEof_inside ho ha,
    fun j hj => ⟨readCell_closeFrame_left hm hj, readCell_closeFrame_right hm hj⟩,
    fun b => readCell_closeFrame hm, rfl, rfl, rfl, fun hleft => ?_, fun hdone => ?_, rfl⟩⟩
  · rw [closeFrame_phase, if_pos hleft]
  · rw [closeFrame_phase, if_neg hdone]

/-- Settles O52: the offset is at most an integer inside the line, so the read meets its units and the floor
of the write's offset is inside as well. -/
theorem scaledAccessesStayInTheLine : Obligations.ScaledAccessesStayInTheLine := by
  intro line off coef s ho hs hsize hk
  obtain ⟨n, hn, hoff⟩ := hs.offsetR_within hsize hk
  obtain ⟨v, hv⟩ := readLine_value_of_within hs hn hoff
  obtain ⟨-, -, hwr⟩ := wrStoresThenScales line off coef s
  have hfloor := hoff.floorNat_le.trans_lt hn
  exact ⟨⟨v, (exec_rd_open ho ..).trans (accumulateRead_value hv)⟩,
    _, hfloor, hwr ho hoff.validOffset hfloor (hs.cell_lt_arenaUnits line _)⟩

/-- Settles O54: the sample plus a zero share of `wet - F` is the sample, and storing it back changes
nothing. -/
theorem zeroAmountKeepsTheSample : Obligations.ZeroAmountKeepsTheSample := by
  intro ch r s ho hv hftz hamt _ hnz hfin
  have hne : s.channel ch ≠ 0x80000000#32 := fun h => by
    rw [h] at hnz
    exact absurd hnz (by decide)
  rw [exec_xfade_valid ho hv, crossFade_posZero hftz hamt hfin hne, setChannel_channel, State.advance]

/-- Settles O5: the engine's turn at a legal word is the word's meaning. -/
theorem stepRunsDecodedInstruction : Obligations.StepRunsDecodedInstruction := by
  refine fun s w i hf hp hw hd => ⟨fun hm => ?_, fun rest hm => ?_⟩
  · rw [step_of_no_move hm, engineStep_run hf hp, runWord_legal hw hd]
  · rw [step_engineTurn (.inr hm), engineStep_run (s := popped rest s) hf hp]
    exact runWord_legal (s := popped rest s) hw hd

/-- Settles O6, one lemma per case of the micro-step. -/
theorem sequencerSteps : Obligations.SequencerSteps := by
  intro s rest hturn
  rw [step_engineTurn hturn]
  refine ⟨fun hrest => ?rest, fun hf hp ha => ?fetch, fun hf hp hend => ?pastEnd⟩
  case rest => exact engineStep_rest (s := popped rest s) hrest
  case fetch => exact (engineStep_fetch (s := popped rest s) hf hp).trans (fetchFrame_inside ha)
  case pastEnd => exact (engineStep_run (s := popped rest s) hf hp).trans (runWord_pastEnd hend)

/-- Settles O20: behind the guard and the valid bit XFADE is the cross-fade of the channel. -/
theorem xfadeMixesTheChannel : Obligations.XfadeMixesTheChannel :=
  fun ch _ _ => ⟨guarded_closed, fun ho hv => exec_xfade_invalid ho hv ch,
    fun ho hv => ⟨exec_xfade_valid ho hv .left, exec_xfade_valid ho hv .right⟩⟩

end Sys2Proof.Proofs
end

section
/-! SUPPORT. The host's accesses: an aligned one inside the register window is made, any other is refused
(R310); what a write of `CTRL` does without a command (R301); what PROCESS answers in each of its cases
(R300); the bytes of frame memory the host may not reach (R92). -/

namespace Sys2Proof.Machine

open Sys2Proof.Claims

variable {s : State} {o a : Nat} {v : Word} {rest : List Move}

/-! The register window. -/

theorem windowOffset_iff : windowOffset o = true ↔ o % 4 = 0 ∧ o ≤ 0xFC := by
  simp [windowOffset]

theorem not_windowOffset (h : o % 4 ≠ 0 ∨ 0xFC < o) : ¬ windowOffset o = true := by
  rw [windowOffset_iff]
  omega

theorem step_hostRead (h : s.moves = .hostRead o :: rest) (ho : windowOffset o = true) :
    step s = .next { s with moves := rest, hostData := hostRead o (popped rest s) } :=
  (step_of_move h).trans (if_pos ho)

theorem step_hostRead_refused (h : s.moves = .hostRead o :: rest) (ho : ¬ windowOffset o = true) :
    step s = .refused (.hostAccess o) :=
  (step_of_move h).trans (if_neg ho)

theorem step_hostWrite (h : s.moves = .hostWrite o v :: rest) (ho : windowOffset o = true) :
    step s = .next (hostWrite o v (popped rest s)) :=
  (step_of_move h).trans (if_pos ho)

theorem step_hostWrite_refused (h : s.moves = .hostWrite o v :: rest) (ho : ¬ windowOffset o = true) :
    step s = .refused (.hostAccess o) :=
  (step_of_move h).trans (if_neg ho)

/-- The read-only and the reserved offsets take no write. -/
theorem hostWrite_ignored (ho : o = 0x04 ∨ 0x28 ≤ o) (v : Word) (s : State) : hostWrite o v s = s := by
  unfold hostWrite
  split
  case h_10 => rfl
  all_goals omega

/-- CTRL, the parameters and the reserved offsets read 0. -/
theorem hostRead_zero (ho : o = 0x00 ∨ (0x10 ≤ o ∧ o ≤ 0x24) ∨ 0x3C ≤ o) (s : State) :
    hostRead o s = 0#32 := by
  unfold hostRead
  split
  case h_9 => rfl
  all_goals omega

/-! A write of `CTRL` that is no INIT. -/

theorem ctrlWrite_faulted (hf : s.fault = true) (v : Word) : ctrlWrite v s = s :=
  if_pos hf

theorem ctrlWrite_zero (s : State) : ctrlWrite 0#32 s = s := by
  simp [ctrlWrite]

theorem ctrlWrite_process (hf : s.fault = false) : ctrlWrite 2#32 s = commandProcess s := by
  simp [ctrlWrite, hf]

theorem ctrlWrite_invalid (hf : s.fault = false) (h0 : v ≠ 0#32) (h1 : v ≠ 1#32) (h2 : v ≠ 2#32) :
    ctrlWrite v s = hostFault 15#4 s :=
  calc ctrlWrite v s = s.raise .cmdInvalid := by simp [ctrlWrite, hf, h0, h1, h2]
    _ = hostFault 15#4 s := raise_eq_hostFault rfl s

theorem step_process (h : s.moves = .hostWrite 0 2#32 :: rest) (hf : s.fault = false) :
    step s = .next (commandProcess (popped rest s)) :=
  (step_ctrlWrite h).trans (congrArg _ (ctrlWrite_process hf))

/-! PROCESS, fault by fault in the order of R300. -/

theorem blockFits_iff : s.blockFits = true ↔
    s.frameBase.toNat + 8 * s.frameCount.toNat ≤ 2 ^ 32 ∧
      Params.frameWindowHolds s.cfg s.frameBase.toNat (8 * s.frameCount.toNat) = true := by
  rw [State.blockFits, Bool.and_eq_true, decide_eq_true_eq]

/-- An empty block fits whatever the platform's window. -/
theorem blockFits_of_empty (hc : s.frameCount = 0#32) : s.blockFits = true := by
  have hbase : s.frameBase.toNat < 2 ^ 32 := s.frameBase.isLt
  obtain ⟨hempty, -⟩ := Proofs.frameWindowLaws s.cfg s.frameBase.toNat 0
  rw [blockFits_iff, hc]
  exact ⟨hbase.le, hempty⟩

theorem not_blockFits_of_overlap (hc : s.frameCount ≠ 0#32)
    (hover : OverlapsRegisterWindow s.cfg s.frameBase.toNat (8 * s.frameCount.toNat)) :
    ¬ s.blockFits = true := by
  have hpos : s.frameCount.toNat ≠ 0 := mt (BitVec.eq_of_toNat_eq (y := 0#32)) hc
  obtain ⟨-, hnever, -⟩ := Proofs.frameWindowLaws s.cfg s.frameBase.toNat (8 * s.frameCount.toNat)
  rw [blockFits_iff, hnever (by omega) hover]
  simp

theorem commandProcess_of_busy (hp : s.phase ≠ .idle) : commandProcess s = hostFault 10#4 s :=
  (if_pos (busy_of_ne_idle hp)).trans (raise_eq_hostFault rfl s)

theorem commandProcess_of_not_inited (hp : s.phase = .idle) (hi : s.inited = false) :
    commandProcess s = hostFault 8#4 s :=
  calc commandProcess s = s.raise .notInit := by simp [commandProcess, busy_of_idle hp, hi]
    _ = hostFault 8#4 s := raise_eq_hostFault rfl s

theorem commandProcess_of_misaligned (hp : s.phase = .idle) (hi : s.inited = true)
    (ha : s.frameBase.toNat % 4 ≠ 0) : commandProcess s = hostFault 11#4 s :=
  calc commandProcess s = s.raise .frameAlign := by simp [commandProcess, busy_of_idle hp, hi, ha]
    _ = hostFault 11#4 s := raise_eq_hostFault rfl s

theorem commandProcess_of_not_fits (hp : s.phase = .idle) (hi : s.inited = true)
    (ha : s.frameBase.toNat % 4 = 0) (hfit : ¬ s.blockFits = true) :
    commandProcess s = hostFault 12#4 s :=
  calc commandProcess s = s.raise .frameRange := by
        simp [commandProcess, busy_of_idle hp, hi, ha, hfit]
    _ = hostFault 12#4 s := raise_eq_hostFault rfl s

theorem commandProcess_of_fits (hp : s.phase = .idle) (hi : s.inited = true)
    (ha : s.frameBase.toNat % 4 = 0) (hfit : s.blockFits = true) : commandProcess s = s.startBlock := by
  simp [commandProcess, busy_of_idle hp, hi, ha, hfit]

/-- PROCESS's effect, the phase it leaves named. -/
theorem startBlock_eq {p : Phase} (h : s.startBlock.phase = p) : s.startBlock =
    { s with blkBase := s.frameBase, blkCount := s.frameCount, fidx := 0#32, framesDone := 0#32,
             phase := p } := by
  rw [← h]
  rfl

/-! The bytes the host may not reach. -/

theorem inWindow_eq_true (hlo : s.cfg.regBase ≤ a) (hhi : a < s.cfg.regBase + 256) :
    s.inWindow a = true := by
  simp [State.inWindow, hlo, hhi]

theorem ownsByte_eq_true (hp : s.phase ≠ .idle) (hlo : s.blkBase.toNat ≤ a)
    (hhi : a < s.blkBase.toNat + 8 * s.blkCount.toNat) : s.ownsByte a = true := by
  simp [State.ownsByte, busy_of_ne_idle hp, hlo, hhi]

theorem withFrameByte_outside (access : State) (ha : 2 ^ 32 ≤ a) :
    withFrameByte a s access = .refused (.hostAddress a) :=
  if_pos ha

theorem withFrameByte_inWindow (access : State) (ha : a < 2 ^ 32) (hw : s.inWindow a = true) :
    withFrameByte a s access = .refused (.hostAccess (a - s.cfg.regBase)) := by
  rw [withFrameByte, if_neg (Nat.not_le_of_lt ha), if_pos hw]

theorem withFrameByte_owned (access : State) (ha : a < 2 ^ 32) (hw : s.inWindow a = false)
    (ho : s.ownsByte a = true) : withFrameByte a s access = .refused (.frameOwned a) := by
  rw [withFrameByte, if_neg (Nat.not_le_of_lt ha), hw, ho]
  rfl

/-- A refusal of byte `a`, whatever the access, refuses its read and its write. -/
theorem step_frameByte_refused {r : Refusal}
    (h : ∀ access, withFrameByte a (popped rest s) access = .refused r) :
    (s.moves = .frameRead a :: rest → step s = .refused r) ∧
    (∀ v, s.moves = .frameWrite a v :: rest → step s = .refused r) :=
  ⟨fun hm => (step_of_move hm).trans (h _), fun _ hm => (step_of_move hm).trans (h _)⟩

end Sys2Proof.Machine
end

section
/-! The obligations on the host's interface of spec/47_host_interface.md. -/

namespace Sys2Proof.Proofs

open Sys2Proof.Machine Sys2Proof.Claims

/-- Settles O31, one lemma per case of PROCESS; an empty block always fits, one over the register window
never does. -/
theorem processStartsTheBlock : Obligations.ProcessStartsTheBlock := by
  intro s rest hm hf fits
  have hstep : step s = .next (commandProcess (popped rest s)) := step_process hm hf
  have hstart (hp : s.phase = .idle) (hi : s.inited = true) (ha : s.frameBase.toNat % 4 = 0)
      (hfit : s.blockFits = true) : step s = .next (popped rest s).startBlock :=
    hstep.trans (congrArg _ (commandProcess_of_fits hp hi ha hfit))
  have hrange (hp : s.phase = .idle) (hi : s.inited = true) (ha : s.frameBase.toNat % 4 = 0)
      (hfit : ¬ s.blockFits = true) : step s = .next (hostFault 12#4 (popped rest s)) :=
    hstep.trans (congrArg _ (commandProcess_of_not_fits hp hi ha hfit))
  refine ⟨fun hp => ?busy, fun hp hi => ?notInit, fun hp hi ha => ?misaligned,
    fun hp hi ha hc => ?empty, fun hp hi ha hc => ⟨fun hout => ?outside, fun hover => ?overlap,
    fun hfit => ?started⟩⟩
  case busy => exact hstep.trans (congrArg _ (commandProcess_of_busy hp))
  case notInit => exact hstep.trans (congrArg _ (commandProcess_of_not_inited hp hi))
  case misaligned => exact hstep.trans (congrArg _ (commandProcess_of_misaligned hp hi ha))
  case empty =>
    exact (hstart hp hi ha (blockFits_of_empty hc)).trans (congrArg _ (startBlock_eq (if_pos hc)))
  case outside => exact hrange hp hi ha (mt blockFits_iff.mp hout)
  case overlap => exact hrange hp hi ha (not_blockFits_of_overlap hc hover)
  case started =>
    exact (hstart hp hi ha (blockFits_iff.mpr hfit)).trans (congrArg _ (startBlock_eq (if_neg hc)))

/-- Settles O29, one lemma per case of the decode; BUSY is the first check of both commands. -/
theorem ctrlWriteDecode : Obligations.CtrlWriteDecode := by
  intro s v rest hm
  have hstep : step s = .next (ctrlWrite v (popped rest s)) := step_ctrlWrite hm
  refine ⟨fun hf => hstep.trans (congrArg _ (ctrlWrite_faulted (s := popped rest s) hf v)), ?zero,
    fun hf h0 h1 h2 => hstep.trans (congrArg _ (ctrlWrite_invalid hf h0 h1 h2)), ?busy⟩
  case zero =>
    rintro rfl
    exact hstep.trans (congrArg _ (ctrlWrite_zero _))
  case busy =>
    rintro hf (rfl | rfl) hp
    · exact (step_init hm hf).trans (congrArg _ (commandInit_of_busy hp))
    · exact (step_process hm hf).trans (congrArg _ (commandProcess_of_busy hp))

/-- Settles O33: at each of the eight offsets the write is the setter's update. -/
theorem settersWriteOneRegister : Obligations.SettersWriteOneRegister :=
  fun _ _ _ => ⟨(step_hostWrite · rfl), (step_hostWrite · rfl), (step_hostWrite · rfl),
    (step_hostWrite · rfl), (step_hostWrite · rfl), (step_hostWrite · rfl), (step_hostWrite · rfl),
    (step_hostWrite · rfl)⟩

/-- Settles O34: a read returns `hostRead`'s value at its offset, and `hostWrite` ignores the others. -/
theorem registerWindowAccess : Obligations.RegisterWindowAccess := by
  intro s o rest halign hle
  have ho : windowOffset o = true := windowOffset_iff.mpr ⟨halign, hle⟩
  refine ⟨fun hm => ⟨_, step_hostRead hm ho, ?_, ?_, ?_, ?_, ?_, ?_, ?_, ?_, ?zero⟩,
    fun v hm hig => (step_hostWrite hm ho).trans (congrArg _ (hostWrite_ignored hig v _))⟩
  case zero => exact fun hz => hostRead_zero hz _
  all_goals
    rintro rfl
    rfl

/-- Settles O37: the register window's check refuses its offsets, `withFrameByte` the bytes. -/
theorem forbiddenHostMovesAreRefused : Obligations.ForbiddenHostMovesAreRefused := by
  refine fun s rest => ⟨fun o ho => ?offset, fun a hp hlo hhi ha hw => ?owned,
    fun a hlo hhi ha => ?window, fun a ha => ?space⟩
  case offset =>
    exact ⟨fun hm => step_hostRead_refused hm (not_windowOffset ho),
      fun v hm => step_hostWrite_refused hm (not_windowOffset ho)⟩
  case owned =>
    exact step_frameByte_refused fun access =>
      withFrameByte_owned access ha (inWindow_eq_false hw) (ownsByte_eq_true hp hlo hhi)
  case window =>
    exact step_frameByte_refused fun access =>
      withFrameByte_inWindow access ha (inWindow_eq_true hlo hhi)
  case space => exact step_frameByte_refused fun access => withFrameByte_outside access ha

end Sys2Proof.Proofs
end

section
/-! SUPPORT. What a step can do to the fault record (R410 to R414): which effects of a move raise `FAULT`, and
that a faulted block keeps its record until a reset. The arena a reset installs (entry 5). -/

namespace Sys2Proof.Machine

open Sys2Proof.Claims

variable {s t : State}

/-- A step makes the next move, the engine's when none is listed (R20, entry 2). -/
theorem step_eq_takeMove (s : State) :
    step s = takeMove (s.moves.headD .engine) (popped s.moves.tail s) := by
  cases hm : s.moves with
  | nil => exact step_engineTurn (.inl ⟨hm, rfl⟩)
  | cons m rest => exact step_of_move hm

/-! Where `FAULT` comes from. -/

theorem ExecEffect.eq_raise_of_fault (h : ExecEffect s t) (hs : s.fault = false) (ht : t.fault = true) :
    ∃ c, t = s.raise c := by
  cases h with
  | raise c => exact ⟨c, rfl⟩
  | _ => exact nomatch hs.symm.trans ht

theorem MoveEffect.eq_raise_of_fault (h : MoveEffect s t) (hs : s.fault = false) (ht : t.fault = true) :
    ∃ c, t = s.raise c := by
  cases h with
  | raise c => exact ⟨c, rfl⟩
  | exec hf hp hu he => exact he.eq_raise_of_fault hs ht
  | reset d => exact nomatch ht
  | _ => exact nomatch hs.symm.trans ht

theorem raise_eq_engineFault_or_hostFault (c : FaultCause) (s : State) :
    s.raise c = engineFault c.code s ∨ s.raise c = hostFault c.code s :=
  (raise_cases c s).imp And.right And.right

/-! Where the fault record stays. -/

/-- `FAULT`, `FCAUSE`, `FSRC`, `FUPC` and `FFRAME` are in `t` as they were in `s`. -/
def KeepsFaultRecord (s t : State) : Prop :=
  t.fault = s.fault ∧ t.fcause = s.fcause ∧ t.fsrc = s.fsrc ∧ t.fupc = s.fupc ∧ t.fframe = s.fframe

/-- Only a command raises a host fault, and a faulted block ignores commands (R413). -/
theorem keepsFaultRecord_hostWrite (hf : s.fault = true) (o : Nat) (v : Word) :
    KeepsFaultRecord s (hostWrite o v s) := by
  unfold hostWrite
  split
  case h_1 =>
    rw [ctrlWrite_faulted hf]
    exact ⟨rfl, rfl, rfl, rfl, rfl⟩
  all_goals exact ⟨rfl, rfl, rfl, rfl, rfl⟩

/-- No move but Reset changes the record of a faulted block (R413, R414). -/
theorem keepsFaultRecord_of_takeMove {m : Move} (hf : s.fault = true) (hm : ∀ d, m ≠ .reset d)
    (h : takeMove m s = .next t) : KeepsFaultRecord s t := by
  cases m with
  | engine =>
    cases (engineStep_rest (.inl hf)).symm.trans h
    exact ⟨rfl, rfl, rfl, rfl, rfl⟩
  | hostRead o =>
    simp only [takeMove] at h
    split at h <;> cases h
    exact ⟨rfl, rfl, rfl, rfl, rfl⟩
  | hostWrite o v =>
    simp only [takeMove] at h
    split at h <;> cases h
    exact keepsFaultRecord_hostWrite hf o v
  | frameRead a =>
    obtain rfl := eq_access_of_withFrameByte h
    exact ⟨rfl, rfl, rfl, rfl, rfl⟩
  | frameWrite a v =>
    obtain rfl := eq_access_of_withFrameByte h
    exact ⟨rfl, rfl, rfl, rfl, rfl⟩
  | reset d => exact absurd rfl (hm d)

/-! The arena of a reset. -/

section
variable {w lo a : Nat} {v : BitVec w} {m l : List (Nat × BitVec w)}

theorem le_of_mem_of_cellsFrom (hm : cellsFrom lo m = true) {c : Nat × BitVec w} (hc : c ∈ m) :
    lo ≤ c.1 := by
  induction m generalizing lo with
  | nil => cases hc
  | cons d rest ih =>
    obtain ⟨b, u⟩ := d
    simp only [cellsFrom, Bool.and_eq_true, decide_eq_true_eq] at hm
    obtain ⟨⟨hb, -⟩, hrest⟩ := hm
    rcases List.mem_cons.mp hc with rfl | hc
    · exact hb
    · exact (Nat.le_succ_of_le hb).trans (ih hrest hc)

theorem cellsFrom_of_append (h : cellsFrom lo (m ++ l) = true) : cellsFrom lo m = true := by
  induction m generalizing lo with
  | nil => rfl
  | cons d rest ih =>
    simp only [List.cons_append, cellsFrom, Bool.and_eq_true] at h ⊢
    obtain ⟨hd, hrest⟩ := h
    exact ⟨hd, ih hrest⟩

/-- In canonical form, writing the last cell appends it. -/
theorem writeCell_eq_append (h : cellsFrom lo (m ++ [(a, v)]) = true) :
    writeCell m a v = m ++ [(a, v)] := by
  induction m generalizing lo with
  | nil =>
    simp only [List.nil_append, cellsFrom, Bool.and_eq_true, bne_iff_ne] at h
    obtain ⟨⟨-, hv⟩, -⟩ := h
    exact if_neg hv
  | cons d rest ih =>
    obtain ⟨b, u⟩ := d
    simp only [List.cons_append, cellsFrom, Bool.and_eq_true] at h
    obtain ⟨-, hrest⟩ := h
    have hba : b + 1 ≤ a := le_of_mem_of_cellsFrom hrest (c := (a, v)) (by simp)
    rw [writeCell, if_neg (by omega), if_neg (by omega), ih hrest, List.cons_append]

end

theorem arenaOf_append_singleton (fmt : StoreFmt) (m : Arena) (c : Nat × Word) :
    arenaOf fmt (m ++ [c]) =
      if c.1 < arenaUnits then writeCell (arenaOf fmt m) c.1 (unitOf fmt c.2) else arenaOf fmt m :=
  List.foldl_append

/-- A canonical arena of units of the format's width describes itself. -/
theorem arenaOf_eq_self {fmt : StoreFmt} {m : Arena} (hm : Arena.wf m = true)
    (hunits : ∀ c ∈ m, unitOf fmt c.2 = c.2) : arenaOf fmt m = m := by
  rw [Arena.wf_iff] at hm
  obtain ⟨hcells, hidx⟩ := hm
  induction m using List.reverseRecOn with
  | nil => rfl
  | append_singleton m c ih =>
    have hself : arenaOf fmt m = m :=
      ih (fun d hd => hunits d (List.mem_append_left _ hd)) (cellsFrom_of_append hcells)
        fun d hd => hidx d (List.mem_append_left _ hd)
    have hc : c ∈ m ++ [c] := by simp
    rw [arenaOf_append_singleton, if_pos (hidx c hc), hunits c hc, hself, writeCell_eq_append hcells]

end Sys2Proof.Machine
end

section
/-! The obligations on faults of spec/60_exceptions.md and on the Reset of spec/70_reset_and_hazards.md. -/

namespace Sys2Proof.Proofs

open Sys2Proof.Machine Sys2Proof.Claims

/-- Settles O27: of all effects of a move only `raise` sets `FAULT`, and it writes one of the two records. -/
theorem faultsArePrecise : Obligations.FaultsArePrecise := by
  intro s t hs hstep ht
  have heffect : MoveEffect (popped s.moves.tail s) t :=
    moveEffect_of_takeMove ((step_eq_takeMove s).symm.trans hstep)
  obtain ⟨c, rfl⟩ := heffect.eq_raise_of_fault hs ht
  exact ⟨c.code, code_ne_zero c, raise_eq_engineFault_or_hostFault c _⟩

/-- Settles O28: the engine rests, CTRL is ignored, and no move but Reset changes the record. -/
theorem faultsAreSticky : Obligations.FaultsAreSticky := by
  refine fun s hf => ⟨fun hm => ?noMove, fun rest hm => ?engine, fun rest v hm => ?ctrl,
    fun t hstep hno => ?record⟩
  case noMove => exact (step_of_no_move hm).trans (engineStep_rest (.inl hf))
  case engine => exact (step_of_move hm).trans (engineStep_rest (.inl hf))
  case ctrl =>
    obtain ⟨hfaulted, -⟩ := ctrlWriteDecode s v rest hm
    exact hfaulted hf
  case record =>
    have hmove : ∀ d, s.moves.headD .engine ≠ .reset d := by
      cases hm : s.moves with
      | nil => nofun
      | cons m rest => simpa [hm] using hno
    obtain ⟨hfault, hrecord⟩ := keepsFaultRecord_of_takeMove (s := popped s.moves.tail s) hf hmove
      ((step_eq_takeMove s).symm.trans hstep)
    exact ⟨hfault.trans hf, hrecord⟩

/-- Settles O39: the fields of `hardwareReset`, read off; a canonical arena describes itself. -/
theorem resetEvent : Obligations.ResetEvent := by
  intro s d rest hm
  have hsv : ∀ r : ScalarReg, (#v[false, false, false, false] : Vector Bool 4)[r] = false := by decide
  have hinc : ∀ k : LfoId, (#v[0#32, 0#32] : Vector Word 2)[k] = 0#32 := by decide
  exact ⟨hardwareReset d (popped rest s), step_of_move hm, rfl, rfl, rfl, rfl, rfl, rfl, rfl, rfl, rfl, rfl,
    rfl, rfl, rfl, rfl, hsv, hinc, fun _ => rfl, rfl, rfl, rfl, rfl, rfl, rfl, rfl, rfl, rfl, rfl, rfl,
    rfl, rfl, rfl, rfl, rfl, rfl, rfl, rfl, arenaOf_eq_self⟩

end Sys2Proof.Proofs
end
